-- ==== Sys2Proof/Word.lean ====
section
/-! DEFINITION. The value domains of 00_scope.md section 6: bytes, symbols, bits, exact rationals and time. -/

namespace Sys2Proof

/-- One byte of a packet; bit 0 is the least significant (rules R13, R70). -/
abbrev Byte := BitVec 8

/-- A symbol of a code: an 8-bit character (rule R11). -/
abbrev Symbol := BitVec 8

/-- A timestamp or a duration in milliseconds, exact (rules R9, R10). -/
abbrev Time := Rat

end Sys2Proof
end

