-- ==== Sys2Proof/Config.lean ====
section
/-! DEFINITION. The implementation parameters of rule R8: the fixed literals in one table, and the parameters that
the spec leaves open in a record of plain data that a device carries. -/

namespace Sys2Proof

/-- The parameter table of rule R8: the literals a claim can name. -/
structure Literals where
  /-- CAL_FRAMES: frame callbacks counted by the rate calibration. -/
  calFrames : Nat
  /-- RATE_MIN: lower clamp of the measured and the effective rate, frames per second. -/
  rateMin : Rat
  /-- RATE_MAX: upper clamp of the measured and the effective rate. -/
  rateMax : Rat
  /-- NOMINAL_FPS: the divisor in `floor(effectiveRate/30)`. -/
  nominalFps : Rat
  /-- DEFAULT_TARGET_FPS: the default of `targetFps`. -/
  defaultTargetFps : Rat
  /-- FPS_WINDOW_MS: length of the FPS counter window. -/
  fpsWindowMs : Rat
  /-- RX_ASSUMED_FPS: the transmitter rate the decoder assumes. -/
  rxAssumedFps : Rat
  /-- CLOSE_FRACTION: the fraction of RX_BIT_DUR after which a window closes. -/
  closeFraction : Rat
  /-- PIXEL_STRIDE: "every 10th pixel". -/
  pixelStride : Nat
  /-- LUMA_R, LUMA_G, LUMA_B: the luminance weights. -/
  lumaR : Rat
  lumaG : Rat
  lumaB : Rat
  /-- DEFAULT_THRESHOLD: the default of `threshold`. -/
  defaultThreshold : Rat
  /-- HYST: half the dead band. -/
  hyst : Rat
  /-- STREAM_CAP: the capacity of DecodedBitstream. -/
  streamCap : Nat
  /-- MATCH_WINDOW_FACTOR: the search window is this many code lengths. -/
  matchWindowFactor : Nat
  /-- FALLBACK_W, FALLBACK_H: the drawing-target size without a native resolution. -/
  fallbackW : BitVec 16
  fallbackH : BitVec 16
  /-- CAM_W, CAM_H, CAM_FPS, CAM_FPS_MIN: the camera request. -/
  camW : Nat
  camH : Nat
  camFps : Nat
  camFpsMin : Nat
  /-- REFRESH_RESOLUTION_MS: "roughly 16 ms"; informative, no rule reads it. -/
  refreshResolutionMs : Nat
  /-- CODE_MAX: the bound of a code operand, in symbols. -/
  codeMax : Nat
  /-- TIME_UNIT: wire units (microseconds) in a millisecond. -/
  wireUnitsPerMs : Nat
  /-- CHANNEL_BITS: bits of a colour channel (the width of `Pixel`'s fields). -/
  channelBits : Nat
deriving DecidableEq, Repr

/-- The values of rule R8, transcribed exactly (D37). -/
def literals : Literals where
  calFrames := 60
  rateMin := 30
  rateMax := 120
  nominalFps := 30
  defaultTargetFps := 60
  fpsWindowMs := 1000
  rxAssumedFps := 60
  closeFraction := 4 / 5
  pixelStride := 10
  lumaR := 2126 / 10000
  lumaG := 7152 / 10000
  lumaB := 722 / 10000
  defaultThreshold := 128
  hyst := 20
  streamCap := 100
  matchWindowFactor := 2
  fallbackW := 640
  fallbackH := 480
  camW := 640
  camH := 480
  camFps := 30
  camFpsMin := 15
  refreshResolutionMs := 16
  codeMax := 65535
  wireUnitsPerMs := 1000
  channelBits := 8

/-- What rounding to the nearest whole rate does with a rate half way between two (93 entry U2 names no rule; log entry
26). -/
inductive Ties where
  | up
  | down
  | even
deriving DecidableEq, Repr

/-- The functions of rates that CAL_ROUND may be (rule R8, D9, 93 entry U2), as plain data; `Machine.roundBy` is the
function each stands for (log entry 26). -/
inductive CalRound where
  /-- The default: the rate as it is. -/
  | identity
  /-- The largest whole rate that is not above it. -/
  | floor
  /-- The nearest whole rate. -/
  | nearest (ties : Ties)
  /-- Any other function of rates: a free value, one for each number. -/
  | other (n : Nat)
  /-- A function with another value at one rate. -/
  | atRate (raw rounded : Rat) (otherwise : CalRound)
deriving DecidableEq, Repr

/-- The parameters that the spec leaves open (rule R8, D9, D16, D19; 93 entries U2, U3, U5), fixed for one device.
Plain data: a device's state carries its own `Config`, and every command runs under it. -/
structure Config where
  /-- CAL_ROUND: the rounding applied to the raw calibrated rate before clamping (D9, U2). -/
  calRound : CalRound
  /-- RX_VALIDATE_CODE: whether RX.START rejects a non-empty non-binary expected code (D16). -/
  rxValidateCode : Bool
  /-- WIN_MAX: the most samples a window may hold; `none` is unbounded (D19). -/
  winMax : Option Nat
  /-- Entry U5: the wire times at which a failed frame is the "corrupted" alternative, each with its sample. A failed
  frame at any other time is missed (rule R123). -/
  failedFrames : List (BitVec 64 × Rat)
deriving DecidableEq, Repr

/-- The spec's defaults: CAL_ROUND the identity, RX_VALIDATE_CODE false, WIN_MAX unbounded, a failed frame missed. -/
def Config.default : Config where
  calRound := .identity
  rxValidateCode := false
  winMax := none
  failedFrames := []

/-- FREE VALUE. CAL_ROUND where it is a function of rates that `CalRound` has no name for: nothing is known of it
(D9; log entry 26). -/
opaque Config.otherCalRound : Nat → Rat → Rat

/-- FREE VALUE. Which samples, of a window that holds WIN_MAX of them, stay when one more joins: the spec gives no
rule for a full window (D19; log entry 25). One mark for each sample of the window, oldest first. -/
opaque Config.fullWindowKeeps : List Rat → Rat → List Bool

end Sys2Proof
end

