-- ==== Sys2Proof/Syntax.lean ====
section
/-! DEFINITION. The command set CMD-v1 as syntax: one constructor per row of the opcode table (rule R77). -/

namespace Sys2Proof

/-- One pixel of a frame: three unsigned 8-bit channels (rules R55, R75). -/
structure Pixel where
  r : Byte
  g : Byte
  b : Byte
deriving DecidableEq, Repr

/-- The ten commands with their operands as the packet carries them (rules R71 to R77).
Timestamps are unsigned microseconds; `fps` and `thr` are signed Q16.16 fields. -/
inductive Instr where
  /-- `TX.START now fps code`, format S. -/
  | txStart (now : BitVec 64) (fps : BitVec 32) (code : List Symbol)
  /-- `TX.TICK ts`, format T. -/
  | txTick (ts : BitVec 64)
  /-- `TX.STOP`, format N. -/
  | txStop
  /-- `TX.COLOR`, format N. -/
  | txColor
  /-- `TX.STATUS`, format N. -/
  | txStatus
  /-- `RX.START`, format D. `cid` is the camera identifier: `none` is `HASCID = 0`. -/
  | rxStart (video draw grant : Bool) (cid : Option (List Byte)) (srcw srch : BitVec 16) (thr : BitVec 32)
      (expected : List Symbol)
  /-- `RX.FRAME`, format F. -/
  | rxFrame (ts : BitVec 64) (ready ctx fail : Bool) (pixels : List Pixel)
  /-- `RX.STOP`, format N. -/
  | rxStop
  /-- `RX.RESET`, format N. -/
  | rxReset
  /-- `RX.STATUS`, format N. -/
  | rxStatus
deriving DecidableEq, Repr

end Sys2Proof
end

