-- ==== Sys2Proof/WellFormed.lean ====
section
/-! DEFINITION. When a command can be written as a packet: each operand sequence fits its length field. -/

namespace Sys2Proof

/-- The lengths that the length fields of formats S, D and F admit (rules R73, R74, R75, R76). -/
def Instr.wf : Instr → Bool
  | .txStart _ _ code => decide (code.length ≤ literals.codeMax)
  | .txTick _ => true
  | .txStop => true
  | .txColor => true
  | .txStatus => true
  | .rxStart _ _ _ cid _ _ _ expected =>
      decide (expected.length ≤ literals.codeMax) && decide ((cid.getD []).length ≤ 255)
  | .rxFrame _ _ _ _ pixels => decide (pixels.length < 2 ^ 32)
  | .rxStop => true
  | .rxReset => true
  | .rxStatus => true

end Sys2Proof
end

