-- ==== Sys2Proof/Decode.lean ====
section
/-! DEFINITION. Packets: the decoder, total on any bytes and rejecting by name, and after it the encoder, both
written from the formats of 30_encoding.md. -/

namespace Sys2Proof

/-! ## Bytes and fields -/

/-- Unsigned little-endian assembly, the first byte least significant (rules R13, R56). -/
def leValue : List Byte → Nat
  | [] => 0
  | b :: bs => b.toNat + 256 * leValue bs

/-- The `n` little-endian bytes of a number (rule R70). -/
def leBytes : Nat → Nat → List Byte
  | 0, _ => []
  | n + 1, v => BitVec.ofNat 8 v :: leBytes n (v / 256)

/-- Byte `i` of a packet, 0 where the packet has no such byte. -/
def byteAt (p : List Byte) (i : Nat) : Byte := p.getD i 0

/-- Bytes `lo` to `lo + n - 1` of a packet. -/
def slice (p : List Byte) (lo n : Nat) : List Byte := (p.drop lo).take n

/-- The unsigned field in bytes `lo` to `lo + n - 1`. -/
def fieldNat (p : List Byte) (lo n : Nat) : Nat := leValue (slice p lo n)

/-- Groups of three bytes as pixels, in the order R, G, B (rules R56, R75). -/
def pixelsOf : List Byte → List Pixel
  | r :: g :: b :: rest => ⟨r, g, b⟩ :: pixelsOf rest
  | _ => []

/-- A pixel's three bytes, in the order R, G, B. -/
def pixelBytes (p : Pixel) : List Byte := [p.r, p.g, p.b]

/-! ## Opcodes and formats -/

/-- The ten opcodes of rule R77. -/
inductive Opcode where
  | txStart | txTick | txStop | txColor | txStatus
  | rxStart | rxFrame | rxStop | rxReset | rxStatus
deriving DecidableEq, Repr

/-- The five packet formats of rule R70. -/
inductive Format where
  | fmtN | fmtT | fmtS | fmtD | fmtF
deriving DecidableEq, Repr

/-- The opcode map's values (rule R77). -/
def opcodeByte : Opcode → Byte
  | .txStart => 0x01
  | .txTick => 0x02
  | .txStop => 0x03
  | .txColor => 0x04
  | .txStatus => 0x05
  | .rxStart => 0x11
  | .rxFrame => 0x12
  | .rxStop => 0x13
  | .rxReset => 0x14
  | .rxStatus => 0x15

/-- The opcode map's format column (rule R77). -/
def opcodeFormat : Opcode → Format
  | .txStart => .fmtS
  | .txTick => .fmtT
  | .txStop => .fmtN
  | .txColor => .fmtN
  | .txStatus => .fmtN
  | .rxStart => .fmtD
  | .rxFrame => .fmtF
  | .rxStop => .fmtN
  | .rxReset => .fmtN
  | .rxStatus => .fmtN

/-- The rows of the opcode map, in its order. -/
def opcodeRows : List Opcode :=
  [.txStart, .txTick, .txStop, .txColor, .txStatus, .rxStart, .rxFrame, .rxStop, .rxReset, .rxStatus]

/-- The opcode an opening byte names; `none` is a reserved opcode (rule R78). -/
def opcodeOf (b : Byte) : Option Opcode := opcodeRows.find? (fun o => opcodeByte o == b)

/-- The length of a packet from its format and the length fields inside it (rules R71 to R75, R80). A length
field that has not arrived reads as 0, which leaves the packet longer than what has arrived. -/
def packetLength (f : Format) (p : List Byte) : Nat :=
  match f with
  | .fmtN => 1
  | .fmtT => 9
  | .fmtS => 15 + fieldNat p 13 2
  | .fmtD => 13 + fieldNat p 10 2 + (byteAt p (12 + fieldNat p 10 2)).toNat
  | .fmtF => 14 + 3 * fieldNat p 10 4

/-! ## The decoder -/

/-- Why a packet is refused with `IllegalCommand` (rules R78, R79). -/
inductive Reject where
  /-- The opening byte is no opcode (rule R78). -/
  | reservedOpcode
  /-- The packet ends before its format's last byte (rule R79). -/
  | truncated
  /-- A reserved flag bit is 1 (rule R79). -/
  | reservedFlag
  /-- `HASCID = 0` and `cidlen ≠ 0` (rule R79). -/
  | cidWithoutFlag
deriving DecidableEq, Repr

/-- What the decoder reads from the bytes at the port. -/
inductive Decoded where
  /-- A command and the bytes after its packet. -/
  | command (i : Instr) (rest : List Byte)
  /-- A refused packet and the bytes after it. -/
  | reject (why : Reject) (rest : List Byte)
deriving DecidableEq, Repr

/-- Format S: `TX.START` (rule R73). -/
def decodeS (p : List Byte) : Instr :=
  .txStart (BitVec.ofNat 64 (fieldNat p 1 8)) (BitVec.ofNat 32 (fieldNat p 9 4)) (slice p 15 (fieldNat p 13 2))

/-- Format T: `TX.TICK` (rule R72). -/
def decodeT (p : List Byte) : Instr := .txTick (BitVec.ofNat 64 (fieldNat p 1 8))

/-- Format D: `RX.START` (rules R74, R79). -/
def decodeD (p : List Byte) : Except Reject Instr :=
  let flags := byteAt p 1
  let explen := fieldNat p 10 2
  let cidlen := (byteAt p (12 + explen)).toNat
  if flags.extractLsb' 4 4 ≠ 0 then .error .reservedFlag
  else if flags.getLsbD 3 = false ∧ cidlen ≠ 0 then .error .cidWithoutFlag
  else .ok (.rxStart (flags.getLsbD 0) (flags.getLsbD 1) (flags.getLsbD 2)
    (if flags.getLsbD 3 then some (slice p (13 + explen) cidlen) else none)
    (BitVec.ofNat 16 (fieldNat p 2 2)) (BitVec.ofNat 16 (fieldNat p 4 2)) (BitVec.ofNat 32 (fieldNat p 6 4))
    (slice p 12 explen))

/-- Format F: `RX.FRAME` (rules R75, R79). -/
def decodeF (p : List Byte) : Except Reject Instr :=
  let flags := byteAt p 9
  if flags.extractLsb' 3 5 ≠ 0 then .error .reservedFlag
  else .ok (.rxFrame (BitVec.ofNat 64 (fieldNat p 1 8)) (flags.getLsbD 0) (flags.getLsbD 1) (flags.getLsbD 2)
    (pixelsOf (slice p 14 (3 * fieldNat p 10 4))))

/-- The command of a whole packet `p` that opens with `o` (rule R77). -/
def decodeWhole (o : Opcode) (p : List Byte) : Except Reject Instr :=
  match o with
  | .txStart => .ok (decodeS p)
  | .txTick => .ok (decodeT p)
  | .txStop => .ok .txStop
  | .txColor => .ok .txColor
  | .txStatus => .ok .txStatus
  | .rxStart => decodeD p
  | .rxFrame => decodeF p
  | .rxStop => .ok .rxStop
  | .rxReset => .ok .rxReset
  | .rxStatus => .ok .rxStatus

/-- The first packet of a byte sequence: a command, or the name of what is wrong with it, and the bytes after
the packet. A reserved opcode is a packet of one byte (rule R78); a malformed packet of a legal opcode is as
long as rule R80 says (DEDUCED, log entry 3); a truncated one takes every byte there is. -/
def decode (bs : List Byte) : Decoded :=
  match bs with
  | [] => .reject .truncated []
  | b :: tail =>
    match opcodeOf b with
    | none => .reject .reservedOpcode tail
    | some o =>
      if bs.length < packetLength (opcodeFormat o) bs then .reject .truncated []
      else
        match decodeWhole o (bs.take (packetLength (opcodeFormat o) bs)) with
        | .ok i => .command i (bs.drop (packetLength (opcodeFormat o) bs))
        | .error why => .reject why (bs.drop (packetLength (opcodeFormat o) bs))

/-! ## The encoder -/

/-- The opcode of a command (rule R77). -/
def instrOpcode : Instr → Opcode
  | .txStart .. => .txStart
  | .txTick .. => .txTick
  | .txStop => .txStop
  | .txColor => .txColor
  | .txStatus => .txStatus
  | .rxStart .. => .rxStart
  | .rxFrame .. => .rxFrame
  | .rxStop => .rxStop
  | .rxReset => .rxReset
  | .rxStatus => .rxStatus

/-- Flag bits as a byte, the first flag bit 0 (rules R74, R75). -/
def flagByte (b0 b1 b2 b3 : Bool) : Byte :=
  BitVec.ofNat 8 (b0.toNat + 2 * b1.toNat + 4 * b2.toNat + 8 * b3.toNat)

/-- The operand bytes of a command, in its format's order (rules R71 to R75). -/
def operandBytes : Instr → List Byte
  | .txStart now fps code => leBytes 8 now.toNat ++ leBytes 4 fps.toNat ++ leBytes 2 code.length ++ code
  | .txTick ts => leBytes 8 ts.toNat
  | .txStop => []
  | .txColor => []
  | .txStatus => []
  | .rxStart video draw grant cid srcw srch thr expected =>
      flagByte video draw grant cid.isSome :: (leBytes 2 srcw.toNat ++ leBytes 2 srch.toNat ++ leBytes 4 thr.toNat
        ++ leBytes 2 expected.length ++ expected
        ++ BitVec.ofNat 8 (cid.getD []).length :: cid.getD [])
  | .rxFrame ts ready ctx fail pixels =>
      leBytes 8 ts.toNat ++ flagByte ready ctx fail false :: (leBytes 4 pixels.length ++ pixels.flatMap pixelBytes)
  | .rxStop => []
  | .rxReset => []
  | .rxStatus => []

/-- The packet of a well-formed command (rules R70 to R77). -/
def encode (i : Instr) : List Byte := opcodeByte (instrOpcode i) :: operandBytes i

/-! ## The host's view of a table row -/

/-- The bytes of an instruction whose bits are `w`: byte 0 is bits 7:0. Every byte above `nbits` that the packet
still needs is 0. -/
def layoutPacket (nbits w : Nat) : List Byte :=
  let bs := leBytes ((nbits + 7) / 8) w
  match opcodeOf (byteAt bs 0) with
  | none => bs
  | some o => bs ++ List.replicate (packetLength (opcodeFormat o) bs - bs.length) 0

/-- The instruction the decoder reads from the bits `w` of a row of the opcode table. -/
def decodeTableWord (nbits w : Nat) : Option Instr :=
  match decode (layoutPacket nbits w) with
  | .command i _ => some i
  | .reject _ _ => none

end Sys2Proof
end

