-- ==== Sys2Proof/Machine/State.lean ====
section
/-! DEFINITION. The architectural state of one device: the registers and arrays of 10_state.md, the command
port, and the outputs of the command executed last. Plain data throughout. -/

namespace Sys2Proof.Machine

/-- TX_PHASE (rule R25): IDLE = 0, CAL = 1, RUN = 2. -/
inductive Phase where
  | idle | cal | run
deriving DecidableEq, Repr

/-- ClassifierState, the register RX_CLS (rule R35). -/
inductive Classifier where
  | unknown | lastWasZero | lastWasOne
deriving DecidableEq, Repr

/-- MatchResult, the register RX_MATCH (rules R36, R156): no Denied value exists. -/
inductive MatchResult where
  | none | granted
deriving DecidableEq, Repr

/-- The two colour tokens (rule R38): DARK = 0, LIGHT = 1. -/
inductive Color where
  | dark | light
deriving DecidableEq, Repr

/-- The status of a response and the name of a logged fault (rule R192). -/
inductive Status where
  | ok | invalidCodeFormat | missingCaptureSurface | cameraAcquisitionFailure | runtimeCaptureError | illegalCommand
deriving DecidableEq, Repr

/-- The constraints record of the camera request (rule R169): `deviceId` is `none` when unset. -/
structure CamConstraints where
  deviceId : Option (List Byte)
  widthIdeal : Nat
  heightIdeal : Nat
  frameRateIdeal : Nat
  frameRateMin : Nat
deriving DecidableEq, Repr

/-- The record `TX.STATUS` returns (rules R81, R107). -/
structure TxStatus where
  active : Bool
  bitIndex : Nat
  curBit : Option Bool
  measuredFps : Rat
deriving DecidableEq, Repr

/-- The record `RX.STATUS` returns (rules R81, R173); `stream` is symbols, oldest first. -/
structure RxStatus where
  active : Bool
  brightness : Rat
  lastBit : Option Bool
  stream : List Symbol
  measuredFps : Rat
  matchResult : MatchResult
  drawW : BitVec 16
  drawH : BitVec 16
deriving DecidableEq, Repr

/-- The data part of a response (rule R81). -/
inductive ResponseData where
  | nothing
  | color (c : Color)
  | txStatus (r : TxStatus)
  | rxStatus (r : RxStatus)
deriving DecidableEq, Repr

/-- A response record (rule R81). -/
structure Response where
  status : Status
  data : ResponseData
deriving DecidableEq, Repr

/-- The output events (rule R196). -/
inductive Event where
  /-- EV_TX_UPDATE with the new TX_CUR_BIT. -/
  | txUpdate (bit : Option Bool)
  /-- EV_MATCH with the snapshot of the status record. -/
  | matched (snapshot : RxStatus)
  /-- EV_CAM_ACQUIRE with the constraints record. -/
  | camAcquire (c : CamConstraints)
  /-- EV_CAM_RELEASE. -/
  | camRelease
  /-- EV_LOG with the fault and the frame's timestamp in microseconds (rule R199). -/
  | log (fault : Status) (ts : BitVec 64)
deriving DecidableEq, Repr

/-- The registers of unit U1 (rules R24 to R33). TX_CODE_LEN is the length of `code`. -/
structure TxState where
  /-- TX_ACTIVE. -/
  active : Bool
  /-- TX_PHASE. -/
  phase : Phase
  /-- TX_CODE, index 0 the first symbol. -/
  code : List Bool
  /-- TX_BIT_INDEX. -/
  bitIndex : Nat
  /-- TX_CUR_BIT; `none` is NONE. -/
  curBit : Option Bool
  /-- TX_TARGET_FPS. -/
  targetFps : Rat
  /-- TX_CAL_T0. -/
  calT0 : Time
  /-- TX_CAL_COUNT. -/
  calCount : Nat
  /-- TX_EFF_RATE. -/
  effRate : Rat
  /-- TX_BIT_DUR. -/
  bitDur : Time
  /-- TX_EPOCH. -/
  epoch : Time
  /-- TX_MEAS_FPS. -/
  measFps : Rat
  /-- TX_FPS_COUNT. -/
  fpsCount : Nat
  /-- TX_FPS_T0. -/
  fpsT0 : Time
deriving DecidableEq, Repr

/-- The registers of units U2, U3 and U4 (rules R34, R35, R36). RX_STREAM_LEN and RX_EXP_LEN are the lengths of
`stream` and `expected`. -/
structure RxState where
  /-- RX_ACTIVE. -/
  active : Bool
  /-- RX_DRAW_W. -/
  drawW : BitVec 16
  /-- RX_DRAW_H. -/
  drawH : BitVec 16
  /-- RX_FIRST. -/
  first : Bool
  /-- RX_BRIGHT. -/
  bright : Rat
  /-- RX_WIN, oldest first. -/
  win : List Rat
  /-- RX_WIN_ANCHOR. -/
  winAnchor : Time
  /-- RX_FPS_COUNT. -/
  fpsCount : Nat
  /-- RX_FPS_T0. -/
  fpsT0 : Time
  /-- RX_MEAS_FPS. -/
  measFps : Rat
  /-- RX_THRESHOLD. -/
  threshold : Rat
  /-- RX_CLS. -/
  cls : Classifier
  /-- RX_LAST_BIT; `none` is NONE. -/
  lastBit : Option Bool
  /-- RX_STREAM, the oldest bit at index 0. -/
  stream : List Bool
  /-- RX_EXPECTED: whole symbols. -/
  expected : List Symbol
  /-- RX_MATCH. -/
  matchResult : MatchResult
deriving DecidableEq, Repr

/-- One device: a TX and an RX instance behind one command port (rule R70). Every field but `tx` and `rx` is the
model's own (log entries 1, 2, 5, 6, 10). -/
structure State where
  /-- The TX instance. -/
  tx : TxState
  /-- The RX instance. -/
  rx : RxState
  /-- The bytes that have reached the port and are not yet executed, first to arrive first. -/
  port : List Byte
  /-- The issuer has ended its input: no further byte follows those in `port`. -/
  inputEnded : Bool
  /-- The response of the command executed last. -/
  response : Option Response
  /-- The events of the command executed last, in the order emitted. -/
  events : List Event
  /-- The device's choice of the parameters that the spec leaves open (rule R8); no command writes it. -/
  config : Config
  /-- The time of the TX run's latest callback, or of its accepted start when none has come (rule R226). -/
  txTime : Time
  /-- The time of the latest processed frame (rule R226); read only when RX_FIRST is 0. -/
  rxTime : Time
deriving DecidableEq, Repr

/-- Where the machine stops because an access does not exist or a value has no meaning. -/
inductive Fault where
  /-- Raised by `TX.TICK` when it must read an element of CODE and TX_CODE_LEN is 0 (rules R50, R99, R100).
  No run reaches it (log entry 12). Safe. -/
  | codeEmpty
  /-- Raised by a RUN `TX.TICK` when TX_BIT_DUR is not above 0, which rule R14 ("must be > 0 before use")
  excludes. No run reaches it (log entry 12). Safe. -/
  | bitDurNotPositive
deriving DecidableEq, Repr

/-- Where the model has no meaning to give. -/
inductive Refusal where
  /-- Raised by `exec` for an instruction without a meaning. Safe. -/
  | notModelled (mnemonic : String)
  /-- Raised by a `TX.TICK` in CAL or RUN and by an `RX.FRAME` of an active run whose timestamp lies before an earlier
  one of the same run, which the spec leaves undefined and has a model refuse (rule R226, 93 entry U1; log entry 6).
  Safe. -/
  | timeBackwards
deriving DecidableEq, Repr

/-- The result of one command or step. -/
abbrev Result := Host.Outcome State Fault Refusal

/-- The TX column of the reset table (rule R39). -/
def TxState.reset : TxState where
  active := false
  phase := .idle
  code := []
  bitIndex := 0
  curBit := none
  targetFps := 0
  calT0 := 0
  calCount := 0
  effRate := 0
  bitDur := 0
  epoch := 0
  measFps := 0
  fpsCount := 0
  fpsT0 := 0

/-- The RX column of the reset table (rule R39). -/
def RxState.reset : RxState where
  active := false
  drawW := 0
  drawH := 0
  first := true
  bright := 0
  win := []
  winAnchor := 0
  fpsCount := 0
  fpsT0 := 0
  measFps := 0
  threshold := 128
  cls := .unknown
  lastBit := none
  stream := []
  expected := []
  matchResult := .none

/-- Power-on reset (rules R39, R215); nothing has reached the port and nothing has been put out, the open parameters
are at the spec's defaults, and no time is held (log entries 10, 11). -/
def State.reset : State where
  tx := TxState.reset
  rx := RxState.reset
  port := []
  inputEnded := false
  response := none
  events := []
  config := Config.default
  txTime := 0
  rxTime := 0

end Sys2Proof.Machine
end

