-- ==== Sys2Proof/Machine/Flags.lean ====
section
/-! DEFINITION. Outputs and labels that are a function of the state: COLOR_OUT, the registration and camera
conditions, and the numeric labels of the enumerated registers and status codes. -/

namespace Sys2Proof.Machine

/-- COLOR_OUT: LIGHT exactly when TX_CUR_BIT is `'1'` (rules R38, R106). -/
def colorOut (tx : TxState) : Color := if tx.curBit = some true then .light else .dark

/-- A frame-clock registration of the TX instance is pending (rules R37, R91). -/
def txRegistrationPending (tx : TxState) : Bool := tx.active

/-- A frame-clock registration of the RX instance is pending (rules R37, R133). -/
def rxRegistrationPending (rx : RxState) : Bool := rx.active

/-- The camera stream is held (rules R37, R202). -/
def cameraHeld (rx : RxState) : Bool := rx.active

/-- The label of TX_PHASE (rule R25). -/
def phaseLabel : Phase → BitVec 2
  | .idle => 0
  | .cal => 1
  | .run => 2

/-- The label of TX_CUR_BIT and RX_LAST_BIT: bit 1 says a bit is present, bit 0 is its value (rules R28, R35). -/
def bitLabel : Option Bool → BitVec 2
  | none => 0
  | some false => 2
  | some true => 3

/-- The label of RX_CLS (rule R35). -/
def classifierLabel : Classifier → BitVec 2
  | .unknown => 0
  | .lastWasZero => 1
  | .lastWasOne => 2

/-- The label of RX_MATCH (rule R36). -/
def matchLabel : MatchResult → BitVec 1
  | .none => 0
  | .granted => 1

/-- The label of a colour token (rules R38, R81). -/
def colorLabel : Color → BitVec 1
  | .dark => 0
  | .light => 1

/-- The numeric code of a status (rule R192). -/
def statusCode : Status → BitVec 8
  | .ok => 0x00
  | .invalidCodeFormat => 0x01
  | .missingCaptureSurface => 0x02
  | .cameraAcquisitionFailure => 0x03
  | .runtimeCaptureError => 0x04
  | .illegalCommand => 0x7F

end Sys2Proof.Machine
end

