-- ==== Sys2Proof/Machine/Operands.lean ====
section
/-! DEFINITION. Operand assembly and the exact arithmetic of 00_scope.md section 6: fields as rationals and
times, symbols as bits, clamp and floor; and the reads of the open parameters of rule R8. -/

namespace Sys2Proof.Machine

/-- A wire timestamp, unsigned microseconds, as milliseconds (rules R10, R76). -/
def timeOf (us : BitVec 64) : Time := (us.toNat : Rat) / (literals.wireUnitsPerMs : Rat)

/-- A signed Q16.16 field as a rational (rules R13, R76). -/
def q16 (v : BitVec 32) : Rat := (v.toInt : Rat) / 65536

/-- The symbol `'0'` (rule R11). -/
def symZero : Symbol := 0x30

/-- The symbol `'1'` (rule R11). -/
def symOne : Symbol := 0x31

/-- `isBinaryCode(c)`: non-empty, and every symbol is `'0'` or `'1'` (rule R11). -/
def isBinaryCode (c : List Symbol) : Bool := !c.isEmpty && c.all (fun x => x == symZero || x == symOne)

/-- The bit a binary symbol is held as (rules R11, R94). -/
def bitOf (x : Symbol) : Bool := x == symOne

/-- The symbol of a held bit: `sym(x)` of rule R154. -/
def symOf (b : Bool) : Symbol := if b then symOne else symZero

/-- `clamp(v, lo, hi) = max(lo, min(hi, v))` (rule R9). -/
def clamp (v lo hi : Rat) : Rat := max lo (min hi v)

/-- The larger of 1 and `floor(rate / NOMINAL_FPS)` (rules R98, R128). -/
def framesPerBit (rate : Rat) : Rat := ((max 1 ⌊rate / literals.nominalFps⌋ : Int) : Rat)

/-- The bit duration of a frame rate: `(1000 / rate) × max(1, floor(rate / 30))` (rules R98, R128). -/
def bitDuration (rate : Rat) : Time := 1000 / rate * framesPerBit rate

/-! ## Reads of the open parameters -/

/-- A rate half way between `above` and the whole number below it is rounded down (log entry 26). -/
def tieFallsFrom (above : Int) : Ties → Bool
  | .up => false
  | .down => true
  | .even => decide (above % 2 = 1)

/-- The nearest whole number (93 entry U2); `ties` says which of the two when the rate lies half way. -/
def nearestWhole (ties : Ties) (raw : Rat) : Int :=
  let above := ⌊raw + 1 / 2⌋
  if raw + 1 / 2 = (above : Rat) ∧ tieFallsFrom above ties = true then above - 1 else above

/-- The function of rates that a `CalRound` stands for (D9, 93 entry U2). -/
def roundBy : CalRound → Rat → Rat
  | .identity, raw => raw
  | .floor, raw => (⌊raw⌋ : Rat)
  | .nearest ties, raw => (nearestWhole ties raw : Rat)
  | .other n, raw => Config.otherCalRound n raw
  | .atRate at' rounded otherwise, raw => if raw = at' then rounded else roundBy otherwise raw

/-- CAL_ROUND of a raw rate (rules R8, R97). -/
def roundRate (c : Config) (raw : Rat) : Rat := roundBy c.calRound raw

/-- The sample of a frame that fails at a wire time (93 entry U5), brought into 0 to 255; `none` when the frame is
missed. -/
def failedSample (c : Config) (ts : BitVec 64) : Option Rat :=
  (c.failedFrames.find? (fun e => e.1 == ts)).map (fun e => clamp e.2 0 255)

/-- The samples of a window that stay when one more joins it: of a window that holds WIN_MAX samples, at most
WIN_MAX - 1 of them, and which ones is a free value (log entry 25). -/
def windowKeeps (c : Config) (win : List Rat) (b : Rat) : List Rat :=
  match c.winMax with
  | none => win
  | some n =>
    if win.length < n then win
    else (((win.zip (Config.fullWindowKeeps win b)).filter Prod.snd).map Prod.fst).take (n - 1)

end Sys2Proof.Machine
end

