-- ==== Sys2Proof/Machine/Ops.lean ====
section
/-! DEFINITION. Named operations that the meanings share: outputs and responses, raising a fault, the port, and
the reads and writes that more than one command performs. -/

namespace Sys2Proof.Machine

/-! ## Outputs -/

/-- The outputs of the previous command are gone when the next begins (rule R196: nothing is queued). -/
def clearOutputs (s : State) : State := { s with response := none, events := [] }

/-- `emit EV(args)` (rule R13): the event follows those already emitted by this command. -/
def emit (e : Event) (s : State) : State := { s with events := s.events ++ [e] }

/-- The command's response (rule R81). -/
def respond (status : Status) (data : ResponseData) (s : State) : State := { s with response := some ⟨status, data⟩ }

/-- The TX instance after a step of a command. -/
def setTx (tx : TxState) (s : State) : State := { s with tx := tx }

/-- The RX instance after a step of a command. -/
def setRx (rx : RxState) (s : State) : State := { s with rx := rx }

/-- The time that the next callback of the TX run must not lie before (rule R226). -/
def setTxTime (t : Time) (s : State) : State := { s with txTime := t }

/-- The time that the next frame of the RX run must not lie before (rule R226). -/
def setRxTime (t : Time) (s : State) : State := { s with rxTime := t }

/-- The bytes left at the port. -/
def setPort (bytes : List Byte) (s : State) : State := { s with port := bytes }

/-- The command ends with `OK` and no data. -/
def done (s : State) : Result := .next (respond .ok .nothing s)

/-- The command ends with `OK` and data. -/
def doneWith (data : ResponseData) (s : State) : Result := .next (respond .ok data s)

/-! ## Faults of the spec -/

/-- `raise F(info)` (rules R190, R194): the command ends here with the fault's status and no data; the writes
and events of its earlier steps stand; nothing is saved and control goes nowhere. There is no return from it
(rule R195): the device takes the next command. -/
def raise (f : Status) (s : State) : Result := .next (respond f .nothing s)

/-! ## The port -/

/-- What the port offers the machine. -/
inductive Fetched where
  /-- No whole packet has arrived and more bytes may follow. -/
  | wait
  /-- A whole command, and the bytes after it. -/
  | command (i : Instr) (rest : List Byte)
  /-- A packet to refuse, and the bytes after it. -/
  | illegal (why : Reject) (rest : List Byte)
deriving DecidableEq, Repr

/-- The next packet at the port. It is executed when its last byte has arrived (rule R70); it is truncated, and
refused, when the input has ended before that (rule R79; log entry 2). -/
def fetch (s : State) : Fetched :=
  if s.port.isEmpty then .wait
  else
    match decode s.port with
    | .command i rest => .command i rest
    | .reject .truncated rest => if s.inputEnded then .illegal .truncated rest else .wait
    | .reject why rest => .illegal why rest

/-- `IllegalCommand` (rules R78, R79, R191): no state changes and no event other than the response. -/
def refuseCommand (rest : List Byte) (s : State) : Result := raise .illegalCommand (clearOutputs (setPort rest s))

/-- No packet to execute: the device waits (rule R215) and puts nothing out. -/
def waitForInput (s : State) : Result := .next (clearOutputs s)

/-- The packet of a table row, placed where the next command is fetched: before the bytes already at the port. -/
def placePacket (nbits w : Nat) (s : State) : State := setPort (layoutPacket nbits w ++ s.port) s

/-! ## Writes that more than one command performs -/

/-- Every write of `TX.STOP` (rule R104), also the implicit stop of `TX.START` (rule R93). -/
def txStopWrites (tx : TxState) : TxState :=
  { tx with
    active := false, phase := .idle
    code := []
    bitIndex := 0, curBit := none
    targetFps := 0, calT0 := 0, calCount := 0
    effRate := 0, bitDur := 0, epoch := 0
    measFps := 0, fpsCount := 0, fpsT0 := 0 }

/-- DecodedBitstream, ClassifierState and MatchResult to empty, Unknown and None (rules R167, R170, R172). -/
def clearDecoding (rx : RxState) : RxState := { rx with stream := [], cls := .unknown, matchResult := .none }

/-- Every write of `RX.STOP` (rule R170). -/
def rxStopWrites (rx : RxState) : RxState := { clearDecoding rx with active := false }

/-- Every write and event of `RX.STOP` (rule R170), also the implicit stop of `RX.START` (rule R167 step 2) and
step 3 of the match action (rule R155): the camera is released only when it was held. -/
def rxStop (s : State) : State :=
  setRx (rxStopWrites s.rx) (if s.rx.active then emit .camRelease s else s)

/-- The record of `TX.STATUS` (rule R107). -/
def txStatusOf (tx : TxState) : TxStatus := ⟨tx.active, tx.bitIndex, tx.curBit, tx.measFps⟩

/-- The record of `RX.STATUS` (rule R173). -/
def rxStatusOf (rx : RxState) : RxStatus :=
  ⟨rx.active, rx.bright, rx.lastBit, rx.stream.map symOf, rx.measFps, rx.matchResult, rx.drawW, rx.drawH⟩

end Sys2Proof.Machine
end

