-- ==== Sys2Proof/Machine/Comparator.lean ====
section
/-! DEFINITION. Unit U3, hysteresis_comparator: the internal operation CLASSIFY (42_hysteresis_comparator.md). -/

namespace Sys2Proof.Machine

/-- `high = threshold + 20` (rule R141). -/
def highThreshold (threshold : Rat) : Rat := threshold + literals.hyst

/-- `low = threshold - 20` (rule R141). -/
def lowThreshold (threshold : Rat) : Rat := threshold - literals.hyst

/-- The bit of a mean brightness (rules R142, R143, R144); every comparison is strict. -/
def classifyBit (threshold : Rat) (cls : Classifier) (m : Rat) : Bool :=
  match cls with
  | .unknown => decide (threshold < m)
  | .lastWasOne => !decide (m < lowThreshold threshold)
  | .lastWasZero => decide (highThreshold threshold < m)

/-- The classifier state after a bit (rules R142 to R145). -/
def classifierAfter (bit : Bool) : Classifier := if bit then .lastWasOne else .lastWasZero

/-- The writes of CLASSIFY for the bit it returns: RX_CLS and RX_LAST_BIT (rules R142 to R145). -/
def classifyWrites (bit : Bool) (rx : RxState) : RxState :=
  { rx with cls := classifierAfter bit, lastBit := some bit }

end Sys2Proof.Machine
end

