-- ==== Sys2Proof/Machine/Matcher.lean ====
section
/-! DEFINITION. Unit U4, pattern_matcher: the internal operations APPEND and MATCH and the match action
(43_pattern_matcher.md). -/

namespace Sys2Proof.Machine

/-- APPEND on the stream: the oldest bit is evicted when the length would exceed the capacity (rules R53, R151). -/
def appendBit (bit : Bool) (stream : List Bool) : List Bool :=
  let longer := stream ++ [bit]
  if literals.streamCap < longer.length then (longer.drop 1).take literals.streamCap else longer

/-- The length of the trailing search window (rule R153). -/
def windowLength (expected : List Symbol) (stream : List Bool) : Nat :=
  min stream.length (literals.matchWindowFactor * expected.length)

/-- `found` of rule R154: the expected code stands at some place `k` of the window, symbol by symbol. -/
def patternFound (expected : List Symbol) (stream : List Bool) : Bool :=
  let n := expected.length
  let wlen := windowLength expected stream
  let base := stream.length - wlen
  (List.range (wlen + 1 - n)).any fun k =>
    (List.range n).all fun j => stream[base + k + j]?.map symOf == expected[j]?

/-- The match action (rule R155): Granted, then the event with the snapshot, then every write and event of
`RX.STOP`, which clears Granted again. -/
def matchAction (s : State) : State :=
  let granted := setRx { s.rx with matchResult := .granted } s
  rxStop (emit (.matched (rxStatusOf granted.rx)) granted)

/-- MATCH (rules R152, R153, R154): it does not run with an empty expected code. -/
def runMatch (s : State) : State :=
  if s.rx.expected = [] then s
  else if patternFound s.rx.expected s.rx.stream then matchAction s
  else s

end Sys2Proof.Machine
end

