-- ==== Sys2Proof/Machine/Accumulator.lean ====
section
/-! DEFINITION. Unit U2, brightness_accumulator: RX.FRAME and its internal operations LUMA and BUCKET
(41_brightness_accumulator.md). -/

namespace Sys2Proof.Machine

/-! ## LUMA -/

/-- Luminance of one pixel (rule R125). -/
def luma (p : Pixel) : Rat :=
  literals.lumaR * (p.r.toNat : Rat) + literals.lumaG * (p.g.toNat : Rat) + literals.lumaB * (p.b.toNat : Rat)

/-- The pixels of the subsample after `skip` more pixels are passed over (rule R126). -/
def sampleFrom : Nat → List Pixel → List Pixel
  | _, [] => []
  | 0, p :: ps => p :: sampleFrom (literals.pixelStride - 1) ps
  | skip + 1, _ :: ps => sampleFrom skip ps

/-- Every 10th pixel of a frame, from pixel 0 (rule R126). -/
def sampledPixels (px : List Pixel) : List Pixel := sampleFrom 0 px

/-- The arithmetic mean (rules R126, R131). -/
def mean (xs : List Rat) : Rat := xs.sum / (xs.length : Rat)

/-- A frame's brightness: the mean luminance of the subsample (rule R126). -/
def frameBrightness (px : List Pixel) : Rat := mean ((sampledPixels px).map luma)

/-! ## BUCKET -/

/-- RX_BIT_DUR: the decoder's constant bit duration (rules R8, R128). -/
def rxBitDur : Time := bitDuration literals.rxAssumedFps

/-- The elapsed time at which a period closes: 80% of RX_BIT_DUR (rules R8, R128). -/
def closeAfter : Time := literals.closeFraction * rxBitDur

/-- The first processed frame after a start anchors the window (rule R129). -/
def anchorWindow (t : Time) (rx : RxState) : RxState :=
  if rx.first then { rx with winAnchor := t, fpsT0 := t, first := false } else rx

/-- The FPS counter (rule R127). -/
def countFrame (t : Time) (rx : RxState) : RxState :=
  if literals.fpsWindowMs ≤ t - rx.fpsT0 then
    { rx with measFps := ((rx.fpsCount + 1 : Nat) : Rat), fpsCount := 0, fpsT0 := t }
  else { rx with fpsCount := rx.fpsCount + 1 }

/-- The sample joins the window, which holds at most WIN_MAX samples (rules R8, R130). -/
def addSample (c : Config) (b : Rat) (rx : RxState) : RxState := { rx with win := windowKeeps c rx.win b ++ [b] }

/-- RX_BRIGHT takes the frame's brightness, step 5 of a processed frame (rules R120, R126). -/
def recordBrightness (b : Rat) (rx : RxState) : RxState := { rx with bright := b }

/-- Steps 6 to 8 of a processed frame, before the close test: anchor, FPS counter, window (rules R120, R127, R129,
R130). -/
def takeSample (c : Config) (b : Rat) (t : Time) (rx : RxState) : RxState :=
  addSample c b (countFrame t (anchorWindow t rx))

/-- The close test (rule R130). -/
def periodCloses (t : Time) (rx : RxState) : Bool := decide (closeAfter ≤ t - rx.winAnchor)

/-- The bit of the period that closes (rules R131, R140). -/
def periodBit (rx : RxState) : Bool := classifyBit rx.threshold rx.cls (mean rx.win)

/-- Closing a period (rule R131): CLASSIFY, APPEND, and a new window anchored at the current time, not at any
fixed phase (rule R132). -/
def closePeriod (t : Time) (rx : RxState) : RxState :=
  { classifyWrites (periodBit rx) rx with
    stream := appendBit (periodBit rx) rx.stream
    win := [], winAnchor := t }

/-- Steps 6 to 11 of a processed frame of brightness `b` at time `t` (rule R120); no later frame of the run may lie
before it (rule R226). -/
def processSample (b : Rat) (t : Time) (s : State) : Result :=
  let rx := takeSample s.config b t s.rx
  if periodCloses t rx then done (runMatch (setRxTime t (setRx (closePeriod t rx) s)))
  else done (setRxTime t (setRx rx s))

/-! ## RX.FRAME -/

/-- A frame in which a step fails (rule R123): logged; missed by default, or a corrupted sample where the device's
parameters list one, with which steps 6 to 10 run (93 entry U5; log entry 22). -/
def failedFrame (ts : BitVec 64) (s : State) : Result :=
  let logged := emit (.log .runtimeCaptureError ts) s
  match failedSample s.config ts with
  | none => done logged
  | some b => processSample b (timeOf ts) logged

/-- A frame's time lies before the latest processed frame of the same run, or before the window's anchor (rule R226,
93 entry U1; log entry 6). -/
def frameBackwards (t : Time) (s : State) : Bool :=
  !s.rx.first && (decide (t < s.rxTime) || decide (t < s.rx.winAnchor))

/-- `RX.FRAME`: the gates in the order of rule R193 (rules R121, R122, R123), then the processed frame (rule R120).
A frame of an active run whose time runs backwards is refused before the other gates: rule R226 asks it of every
frame's timestamp. -/
def rxFrame (ts : BitVec 64) (ready ctx fail : Bool) (pixels : List Pixel) (s : State) : Result :=
  if !s.rx.active then done s
  else if frameBackwards (timeOf ts) s then .refused .timeBackwards
  else if !ctx || !ready then done s
  else if fail || pixels.isEmpty then failedFrame ts s
  else
    processSample (frameBrightness pixels) (timeOf ts) (setRx (recordBrightness (frameBrightness pixels) s.rx) s)

/-- `RX.FRAME` (rules R120 to R133). -/
def execRxFrame (ts : BitVec 64) (ready ctx fail : Bool) (pixels : List Pixel) (s : State) : Result :=
  rxFrame ts ready ctx fail pixels (clearOutputs s)

end Sys2Proof.Machine
end

