-- ==== Sys2Proof/Machine/DecoderControl.lean ====
section
/-! DEFINITION. The decoder control commands: RX.START, RX.STOP, RX.RESET, RX.STATUS (44_decoder_control.md). -/

namespace Sys2Proof.Machine

/-- The drawing target takes the source's native size, each dimension with its own fallback (rule R167 step 3). -/
def sizeTarget (srcw srch : BitVec 16) (rx : RxState) : RxState :=
  { rx with
    drawW := if srcw = 0 then literals.fallbackW else srcw
    drawH := if srch = 0 then literals.fallbackH else srch }

/-- The camera request (rule R169). -/
def camRequest (cid : Option (List Byte)) : CamConstraints :=
  ⟨cid, literals.camW, literals.camH, literals.camFps, literals.camFpsMin⟩

/-- The writes of a granted start (rule R167 steps 6 and 7). -/
def beginRun (threshold : Rat) (expected : List Symbol) (rx : RxState) : RxState :=
  { clearDecoding rx with
    threshold := threshold, expected := expected
    win := [], first := true, fpsCount := 0, measFps := 0
    active := true }

/-- Steps 2 to 4 of a start that passed its checks: the implicit stop, the resize, the request (rule R167). -/
def requestCamera (cid : Option (List Byte)) (srcw srch : BitVec 16) (s : State) : State :=
  let stopped := if s.rx.active then rxStop s else s
  emit (.camAcquire (camRequest cid)) (setRx (sizeTarget srcw srch stopped.rx) stopped)

/-- `RX.START` (rules R166, R167, R168), its faults in the order of rule R193; whether it checks the expected code is
the device's RX_VALIDATE_CODE (rule R8). -/
def rxStart (video draw grant : Bool) (cid : Option (List Byte)) (srcw srch : BitVec 16)
    (thr : BitVec 32) (expected : List Symbol) (s : State) : Result :=
  if !video || !draw then raise .missingCaptureSurface s
  else if s.config.rxValidateCode && !expected.isEmpty && !isBinaryCode expected then raise .invalidCodeFormat s
  else
    let asked := requestCamera cid srcw srch s
    if grant then done (setRx (beginRun (q16 thr) expected asked.rx) asked)
    else raise .cameraAcquisitionFailure asked

/-- `RX.START` (rules R166 to R169). -/
def execRxStart (video draw grant : Bool) (cid : Option (List Byte)) (srcw srch : BitVec 16) (thr : BitVec 32)
    (expected : List Symbol) (s : State) : Result :=
  rxStart video draw grant cid srcw srch thr expected (clearOutputs s)

/-- `RX.STOP` (rules R170, R171). -/
def execRxStop (s : State) : Result := done (rxStop (clearOutputs s))

/-- `RX.RESET` (rule R172): the window and its anchor are not touched (rule R224). -/
def execRxReset (s : State) : Result := done (setRx (clearDecoding s.rx) (clearOutputs s))

/-- `RX.STATUS` (rule R173). -/
def execRxStatus (s : State) : Result := doneWith (.rxStatus (rxStatusOf s.rx)) (clearOutputs s)

end Sys2Proof.Machine
end

