-- ==== Sys2Proof/Machine/Transmitter.lean ====
section
/-! DEFINITION. Unit U1, bit_modulator: TX.START, TX.TICK, TX.STOP, TX.COLOR, TX.STATUS (40_bit_modulator.md). -/

namespace Sys2Proof.Machine

/-! ## TX.START -/

/-- The writes of an accepted start (rule R94). -/
def txAccept (now : Time) (targetFps : Rat) (code : List Bool) (tx : TxState) : TxState :=
  { tx with
    code := code, targetFps := targetFps
    calT0 := now, calCount := 0
    phase := .cal, active := true }

/-- The implicit stop of a prior run, also one that is still calibrating (rule R93). -/
def txImplicitStop (tx : TxState) : TxState := if tx.active then txStopWrites tx else tx

/-- `TX.START` (rules R92, R93, R94): the check of the code comes before any register is touched. No callback of the
run may lie before `now` (rule R226). -/
def execTxStart (now : BitVec 64) (fps : BitVec 32) (code : List Symbol) (s : State) : Result :=
  if isBinaryCode code then
    done (setTxTime (timeOf now)
      (setTx (txAccept (timeOf now) (q16 fps) (code.map bitOf) (txImplicitStop s.tx)) (clearOutputs s)))
  else raise .invalidCodeFormat (clearOutputs s)

/-! ## TX.TICK in CAL -/

/-- The calibrated rate from the elapsed wall time of the calibration (rule R97), under the device's CAL_ROUND. The
rule covers every elapsed time; one below 0 is never asked for, since its tick is refused (log entry 7). -/
def measuredRate (c : Config) (elapsed : Rat) : Rat :=
  if 0 < elapsed then
    clamp (roundRate c ((literals.calFrames : Rat) * 1000 / elapsed)) literals.rateMin literals.rateMax
  else literals.rateMax

/-- The effective transmit rate (rule R98). -/
def effectiveRate (measured targetFps : Rat) : Rat :=
  clamp (min measured targetFps) literals.rateMin literals.rateMax

/-- The writes of the calibration completion at time `t`, where `bit` is CODE[0] (rules R98, R99). -/
def beginLoop (measured : Rat) (t : Time) (bit : Bool) (tx : TxState) : TxState :=
  { tx with
    effRate := effectiveRate measured tx.targetFps
    bitDur := bitDuration (effectiveRate measured tx.targetFps)
    measFps := measured
    epoch := t, fpsT0 := t, fpsCount := 0
    bitIndex := 0, curBit := some bit
    phase := .run }

/-- A calibration callback (rule R96); the last one completes the calibration (rules R97 to R99). A time before the
run's latest callback or before its start is refused (rule R226, 93 entry U1; log entry 6). -/
def calTick (t : Time) (s : State) : Result :=
  let tx := { s.tx with calCount := s.tx.calCount + 1 }
  if t < s.txTime ∨ t < tx.calT0 then .refused .timeBackwards
  else if tx.calCount = literals.calFrames then
    match tx.code[0]? with
    | none => .fault .codeEmpty
    | some bit =>
      done (emit (.txUpdate (some bit))
        (setTxTime t (setTx (beginLoop (measuredRate s.config (t - tx.calT0)) t bit tx) s)))
  else done (setTxTime t (setTx tx s))

/-! ## TX.TICK in RUN -/

/-- `floor(elapsed / bitDuration) mod len(code)` (rule R100). -/
def bitIndexAt (elapsed dur : Time) (len : Nat) : Nat := (⌊elapsed / dur⌋ % (len : Int)).toNat

/-- The visible bit, updated only when the index changes (rule R101). -/
def showIndex (idx : Nat) (s : State) : State :=
  if idx = s.tx.bitIndex then s
  else emit (.txUpdate s.tx.code[idx]?) (setTx { s.tx with bitIndex := idx, curBit := s.tx.code[idx]? } s)

/-- The FPS counter (rule R102). -/
def countTick (t : Time) (tx : TxState) : TxState :=
  if literals.fpsWindowMs ≤ t - tx.fpsT0 then
    { tx with measFps := ((tx.fpsCount + 1 : Nat) : Rat), fpsCount := 0, fpsT0 := t }
  else { tx with fpsCount := tx.fpsCount + 1 }

/-- A loop iteration (rules R100, R101, R102). A time before the run's latest callback, before the epoch or before
TX_FPS_T0 is refused (rule R226, 93 entry U1; log entry 6). -/
def runTick (t : Time) (s : State) : Result :=
  if t < s.txTime ∨ t < s.tx.epoch ∨ t < s.tx.fpsT0 then .refused .timeBackwards
  else if s.tx.code = [] then .fault .codeEmpty
  else if s.tx.bitDur ≤ 0 then .fault .bitDurNotPositive
  else
    let s1 := showIndex (bitIndexAt (t - s.tx.epoch) s.tx.bitDur s.tx.code.length) s
    done (setTxTime t (setTx (countTick t s1.tx) s1))

/-- `TX.TICK` at a time (rule R95): nothing when inactive, and nothing in IDLE (rule R86). -/
def txTick (t : Time) (s : State) : Result :=
  if s.tx.active then
    match s.tx.phase with
    | .idle => done s
    | .cal => calTick t s
    | .run => runTick t s
  else done s

/-- `TX.TICK` (rules R95 to R102). -/
def execTxTick (ts : BitVec 64) (s : State) : Result := txTick (timeOf ts) (clearOutputs s)

/-! ## TX.STOP, TX.COLOR, TX.STATUS -/

/-- `TX.STOP` (rules R104, R105). -/
def execTxStop (s : State) : Result := done (setTx (txStopWrites s.tx) (clearOutputs s))

/-- `TX.COLOR` (rule R106). -/
def execTxColor (s : State) : Result := doneWith (.color (colorOut s.tx)) (clearOutputs s)

/-- `TX.STATUS` (rule R107). -/
def execTxStatus (s : State) : Result := doneWith (.txStatus (txStatusOf s.tx)) (clearOutputs s)

end Sys2Proof.Machine
end

