-- ==== Sys2Proof/Machine/Dispatch.lean ====
section
/-! DEFINITION. One arm per command: which meaning executes it. -/

namespace Sys2Proof.Machine

def exec (i : Instr) (s : State) : Host.Outcome State Fault Refusal :=
  match i with
  | .txStart now fps code => Sys2Proof.Machine.execTxStart now fps code s
  | .txTick ts => Sys2Proof.Machine.execTxTick ts s
  | .txStop => Sys2Proof.Machine.execTxStop s
  | .txColor => Sys2Proof.Machine.execTxColor s
  | .txStatus => Sys2Proof.Machine.execTxStatus s
  | .rxStart video draw grant cid srcw srch thr expected => Sys2Proof.Machine.execRxStart video draw grant cid srcw srch thr expected s
  | .rxFrame ts ready ctx fail pixels => Sys2Proof.Machine.execRxFrame ts ready ctx fail pixels s
  | .rxStop => Sys2Proof.Machine.execRxStop s
  | .rxReset => Sys2Proof.Machine.execRxReset s
  | .rxStatus => Sys2Proof.Machine.execRxStatus s

end Sys2Proof.Machine
end

