-- ==== Sys2Proof/Machine/Step.lean ====
section
/-! DEFINITION. One step of the device: the next packet at the port is taken and executed whole. -/

namespace Sys2Proof.Machine

/-- One step (rules R58, R60, R70): a whole packet is removed from the port and executed; a packet that is no
command is refused; with no whole packet the device waits. -/
def step (s : State) : Host.Outcome State Fault Refusal :=
  match fetch s with
  | .wait => waitForInput s
  | .command i rest => exec i (setPort rest s)
  | .illegal _ rest => refuseCommand rest s

/-- The state with the packet of a table row placed where `step` fetches its next command. -/
def State.withFetchWord (s : State) (nbits w : Nat) : State := placePacket nbits w s

end Sys2Proof.Machine
end

