-- ==== Sys2Proof/Machine/Assembler.lean ====
section
/-! DEFINITION. The assembler of 30_encoding.md section 7: one line of the textual form (rule R82) or one
pseudo-instruction (rule R83) to the commands it stands for. It is a tool of the host, not of the device. -/

namespace Sys2Proof.Machine

/-! ## Words of a line -/

/-- The double quote that encloses a symbol string. -/
def asmQuote : Char := Char.ofNat 34

/-- The pieces of a text between the places where `c` stands. -/
def splitAtChar (c : Char) : List Char → List (List Char)
  | [] => [[]]
  | x :: xs =>
    if x = c then [] :: splitAtChar c xs
    else match splitAtChar c xs with
      | [] => [[x]]
      | w :: ws => (x :: w) :: ws

/-- The words of a line: pieces between spaces, where a space inside a quoted string or inside brackets does not
end a word. `cur` is the word being read, backwards. -/
def asmWords (quoted bracketed : Bool) (cur : List Char) : List Char → List (List Char)
  | [] => if cur.isEmpty then [] else [cur.reverse]
  | x :: xs =>
    if x = asmQuote then asmWords (!quoted) bracketed (x :: cur) xs
    else if quoted then asmWords quoted bracketed (x :: cur) xs
    else if x = '[' then asmWords quoted true (x :: cur) xs
    else if x = ']' then asmWords quoted false (x :: cur) xs
    else if x = ' ' && !bracketed then
      if cur.isEmpty then asmWords quoted bracketed [] xs
      else cur.reverse :: asmWords quoted bracketed [] xs
    else asmWords quoted bracketed (x :: cur) xs

/-- Words joined again, with one space between two. -/
def asmJoin : List (List Char) → List Char
  | [] => []
  | [w] => w
  | w :: ws => w ++ ' ' :: asmJoin ws

/-- A word `key=value` as its two parts, split at the first `=`. -/
def asmOperand : List Char → Option (List Char × List Char)
  | [] => none
  | x :: xs => if x = '=' then some ([], xs) else (asmOperand xs).map fun kv => (x :: kv.1, kv.2)

/-- The value of a key among the operands. -/
def asmLookup (key : String) (ops : List (List Char × List Char)) : Option (List Char) :=
  (ops.find? (fun kv => kv.1 == key.toList)).map Prod.snd

/-- Every operand has a key that the command takes, and no key stands twice. -/
def asmKeysOk (allowed : List String) (ops : List (List Char × List Char)) : Bool :=
  ops.all (fun kv => allowed.any (fun k => k.toList == kv.1)) && decide ((ops.map Prod.fst).Nodup)

/-! ## Values -/

/-- A decimal count. -/
def asmNat (cs : List Char) : Option Nat :=
  if !cs.isEmpty && cs.all Char.isDigit then some (cs.foldl (fun n c => 10 * n + (c.toNat - 48)) 0) else none

/-- A count below a bound. -/
def asmNatBelow (bound : Nat) (cs : List Char) : Option Nat := (asmNat cs).filter (fun n => n < bound)

/-- `<us>`: a decimal count of microseconds that the 64-bit field holds (rules R76, R82). -/
def asmMicros (cs : List Char) : Option (BitVec 64) := (asmNatBelow (2 ^ 64) cs).map (BitVec.ofNat 64)

/-- A flag, `0` or `1`. -/
def asmFlag : List Char → Option Bool
  | ['0'] => some false
  | ['1'] => some true
  | _ => none

/-- An unsigned decimal, with or without a fraction. -/
def asmUnsigned (cs : List Char) : Option Rat :=
  match splitAtChar '.' cs with
  | [whole] => (asmNat whole).map fun n => (n : Rat)
  | [whole, frac] => do
    let n ← asmNat whole
    let f ← asmNat frac
    pure ((n : Rat) + (f : Rat) / ((10 ^ frac.length : Nat) : Rat))
  | _ => none

/-- A decimal with an optional minus sign. -/
def asmDecimal : List Char → Option Rat
  | '-' :: cs => (asmUnsigned cs).map fun v => -v
  | cs => asmUnsigned cs

/-- The Q16.16 field of a number: it must be a multiple of 1/65536 in the field's range (rules R76, R82). -/
def q16Field (v : Rat) : Option (BitVec 32) :=
  let x := v * 65536
  if x.den = 1 ∧ -(2 ^ 31) ≤ x.num ∧ x.num < 2 ^ 31 then some (BitVec.ofInt 32 x.num) else none

/-- `<number>`, with the default that stands when the operand is left out (rule R82). -/
def asmNumber (default : Rat) : Option (List Char) → Option (BitVec 32)
  | none => q16Field default
  | some cs => (asmDecimal cs).bind q16Field

/-- A symbol string between double quotes, each character one byte (rule R82). -/
def asmBytes (cs : List Char) : Option (List Byte) :=
  match splitAtChar asmQuote cs with
  | [[], inner, []] => inner.mapM fun c => if c.toNat < 256 then some (BitVec.ofNat 8 c.toNat) else none
  | _ => none

/-- `<w>x<h>`. -/
def asmSize (cs : List Char) : Option (BitVec 16 × BitVec 16) :=
  match splitAtChar 'x' cs with
  | [w, h] => do
    let w ← asmNatBelow (2 ^ 16) w
    let h ← asmNatBelow (2 ^ 16) h
    pure (BitVec.ofNat 16 w, BitVec.ofNat 16 h)
  | _ => none

/-- A text without its first and last character, which must be the two given. -/
def asmEnclosed (first last : Char) (cs : List Char) : Option (List Char) :=
  match cs with
  | [] => none
  | x :: xs => if x = first ∧ xs.getLast? = some last then some xs.dropLast else none

/-- One channel. -/
def asmChannel (cs : List Char) : Option Byte := (asmNatBelow 256 cs).map (BitVec.ofNat 8)

/-- `(r,g,b)`. -/
def asmPixel (cs : List Char) : Option Pixel := do
  match splitAtChar ',' (← asmEnclosed '(' ')' cs) with
  | [r, g, b] => pure ⟨← asmChannel r, ← asmChannel g, ← asmChannel b⟩
  | _ => none

/-- `[(r,g,b) ...]`. -/
def asmPixels (cs : List Char) : Option (List Pixel) := do
  (asmWords false false [] (← asmEnclosed '[' ']' cs)).mapM asmPixel

/-- An operand that may be left out and then takes its default (rule R82). -/
def asmOr {α : Type} (default : α) (read : List Char → Option α) : Option (List Char) → Option α
  | none => some default
  | some cs => read cs

/-! ## Lines -/

/-- `TX.START now=<us> code="<symbols>" [fps=<number>]` (rule R82). -/
def asmTxStart (ops : List (List Char × List Char)) : Option Instr := do
  let now ← (asmLookup "now" ops).bind asmMicros
  let code ← (asmLookup "code" ops).bind asmBytes
  let fps ← asmNumber literals.defaultTargetFps (asmLookup "fps" ops)
  if asmKeysOk ["now", "code", "fps"] ops then pure (.txStart now fps code) else none

/-- `TX.TICK ts=<us>` (rule R82). -/
def asmTxTick (ops : List (List Char × List Char)) : Option Instr := do
  let ts ← (asmLookup "ts" ops).bind asmMicros
  if asmKeysOk ["ts"] ops then pure (.txTick ts) else none

/-- `RX.START`, with the defaults of rule R82. -/
def asmRxStart (ops : List (List Char × List Char)) : Option Instr := do
  let video ← (asmLookup "video" ops).bind asmFlag
  let draw ← (asmLookup "draw" ops).bind asmFlag
  let grant ← (asmLookup "grant" ops).bind asmFlag
  let size ← asmOr (0, 0) asmSize (asmLookup "src" ops)
  let code ← asmOr [] asmBytes (asmLookup "code" ops)
  let thr ← asmNumber literals.defaultThreshold (asmLookup "thr" ops)
  let cam ← asmOr none (fun cs => (asmBytes cs).map some) (asmLookup "cam" ops)
  if asmKeysOk ["video", "draw", "grant", "src", "code", "thr", "cam"] ops then
    pure (.rxStart video draw grant cam size.1 size.2 thr code)
  else none

/-- `RX.FRAME`, with the defaults of rule R82. -/
def asmRxFrame (ops : List (List Char × List Char)) : Option Instr := do
  let ts ← (asmLookup "ts" ops).bind asmMicros
  let ready ← asmOr true asmFlag (asmLookup "ready" ops)
  let ctx ← asmOr true asmFlag (asmLookup "ctx" ops)
  let fail ← asmOr false asmFlag (asmLookup "fail" ops)
  let px ← (asmLookup "px" ops).bind asmPixels
  if asmKeysOk ["ts", "ready", "ctx", "fail", "px"] ops then pure (.rxFrame ts ready ctx fail px) else none

/-- `TX.TICKS n, t0, dt` (rule R83). -/
def asmTxTicks (n t0 dt : Nat) : Option (List Instr) :=
  (List.range n).mapM fun k => if t0 + k * dt < 2 ^ 64 then some (.txTick (BitVec.ofNat 64 (t0 + k * dt))) else none

/-- `RX.GRAY ts, v` (rule R83): a ready frame of one grey pixel. -/
def asmRxGray (ts : BitVec 64) (v : Byte) : Instr := .rxFrame ts true true false [⟨v, v, v⟩]

/-- `RX.SKIP ts` (rule R83): a frame with no buffered data. -/
def asmRxSkip (ts : BitVec 64) : Instr := .rxFrame ts false true false []

/-- A text without the spaces before and after it. -/
def asmTrim (cs : List Char) : List Char :=
  ((cs.dropWhile (· = ' ')).reverse.dropWhile (· = ' ')).reverse

/-- The comma-separated operands of a pseudo-instruction. DESIGN CHOICE (log entry 20): rule R83 writes a space after
a comma and says nothing of other spaces; here spaces around an operand do not count, and a space inside one stays in
it, so that a number written with one is rejected. -/
def asmPositional (ws : List (List Char)) : List (List Char) := (splitAtChar ',' (asmJoin ws)).map asmTrim

/-- A pseudo-instruction's expansion (rule R83). -/
def asmPseudo (mnemonic : List Char) (ws : List (List Char)) : Option (List Instr) :=
  if mnemonic = "TX.TICKS".toList then
    match asmPositional ws with
    | [n, t0, dt] => do asmTxTicks (← asmNat n) (← asmNat t0) (← asmNat dt)
    | _ => none
  else if mnemonic = "RX.GRAY".toList then
    match asmPositional ws with
    | [ts, v] => do pure [asmRxGray (← asmMicros ts) (← asmChannel v)]
    | _ => none
  else if mnemonic = "RX.SKIP".toList then
    match asmPositional ws with
    | [ts] => do pure [asmRxSkip (← asmMicros ts)]
    | _ => none
  else none

/-- A command of the textual form (rule R82). -/
def asmCommand (mnemonic : List Char) (ops : List (List Char × List Char)) : Option Instr :=
  if mnemonic = "TX.START".toList then asmTxStart ops
  else if mnemonic = "TX.TICK".toList then asmTxTick ops
  else if mnemonic = "RX.START".toList then asmRxStart ops
  else if mnemonic = "RX.FRAME".toList then asmRxFrame ops
  else if !ops.isEmpty then none
  else if mnemonic = "TX.STOP".toList then some .txStop
  else if mnemonic = "TX.COLOR".toList then some .txColor
  else if mnemonic = "TX.STATUS".toList then some .txStatus
  else if mnemonic = "RX.STOP".toList then some .rxStop
  else if mnemonic = "RX.RESET".toList then some .rxReset
  else if mnemonic = "RX.STATUS".toList then some .rxStatus
  else none

/-- One line of assembly: the commands it stands for, each fit for a packet, or `none` where the assembler
rejects it (rules R82, R83). -/
def assemble (line : String) : Option (List Instr) :=
  match asmWords false false [] line.toList with
  | [] => none
  | mnemonic :: ws =>
    match asmPseudo mnemonic ws with
    | some is => some is
    | none => do
      let i ← asmCommand mnemonic (← ws.mapM asmOperand)
      if i.wf then pure [i] else none

end Sys2Proof.Machine
end

