-- ==== Sys2Proof/Safety.lean ====
section
/-! DEFINITION. What counts as a good state and a good run, in the terms that claims use: the invariants of rule
R23 with the facts that carry them, the states that a device can reach, and the execution of a list of commands. -/

namespace Sys2Proof.Machine

/-- The TX instance's invariant: rule R23 lines 1 to 3, and what holds while a run calibrates or loops. -/
structure TxInv (tx : TxState) : Prop where
  /-- R23 line 1. -/
  activeIff : tx.active = true ↔ tx.phase ≠ .idle
  /-- R23 line 2. -/
  idle : tx.phase = .idle → tx = TxState.reset
  /-- The code operand's bound (rule R26). -/
  codeBound : tx.code.length ≤ literals.codeMax
  /-- A run has a code (rules R11, R92). -/
  codeNonempty : tx.phase ≠ .idle → tx.code ≠ []
  /-- During CAL fewer than 60 callbacks are counted, and every register that rule R94 does not name keeps its
  reset value: nothing is shown. -/
  calibrating : tx.phase = .cal →
    tx.calCount < literals.calFrames ∧
      tx = { TxState.reset with active := true, phase := .cal, code := tx.code, targetFps := tx.targetFps,
                                calT0 := tx.calT0, calCount := tx.calCount }
  /-- R23 line 3, and the range of the rate (rule R98). -/
  running : tx.phase = .run →
    30 ≤ tx.effRate ∧ tx.effRate ≤ 120 ∧ tx.bitDur = bitDuration tx.effRate ∧ 0 < tx.bitDur ∧
      tx.bitIndex < tx.code.length ∧ tx.curBit = tx.code[tx.bitIndex]? ∧ tx.epoch ≤ tx.fpsT0

/-- The RX instance's invariant: rule R23 lines 4 to 6, and what carries rule R157. -/
structure RxInv (rx : RxState) : Prop where
  /-- R23 line 4. -/
  streamBound : rx.stream.length ≤ literals.streamCap
  /-- R23 line 5. -/
  inactive : rx.active = false → rx.stream = [] ∧ rx.cls = .unknown
  /-- R23 line 6. -/
  notGranted : rx.matchResult = .none
  /-- The code operand's bound (rule R36). -/
  expectedBound : rx.expected.length ≤ literals.codeMax
  /-- A brightness is in 0 to 255 (rule R126). -/
  brightRange : 0 ≤ rx.bright ∧ rx.bright ≤ 255
  /-- So is every sample of the window (rules R126, R130). -/
  winRange : ∀ b ∈ rx.win, 0 ≤ b ∧ b ≤ 255
  /-- The window is empty until the first processed frame (rules R129, R167). -/
  firstWindow : rx.first = true → rx.win = []
  /-- The classifier is Unknown exactly until the first bit (rules R142, R167, R170, R172). -/
  unknownIff : rx.cls = .unknown ↔ rx.stream = []
  /-- The newest bit of the stream is the classifier's last decision and RX_LAST_BIT (rules R131, R145). -/
  lastDecision : ∀ b, rx.stream.getLast? = some b → rx.cls = classifierAfter b ∧ rx.lastBit = some b
  /-- A run whose expected code already stands in the search window has been stopped (rules R155, R157). -/
  notYetFound : rx.expected ≠ [] → patternFound rx.expected rx.stream = false

/-- Both instances meet their invariants, and the times that rule R226 compares with lie at or after every time that
the registers of the same run hold, so that no elapsed time is negative. The port, the outputs and the open parameters
may hold anything. -/
structure StateInv (s : State) : Prop where
  tx : TxInv s.tx
  rx : RxInv s.rx
  calTime : s.tx.phase = .cal → s.tx.calT0 ≤ s.txTime
  runTime : s.tx.phase = .run → s.tx.epoch ≤ s.txTime ∧ s.tx.fpsT0 ≤ s.txTime
  frameTime : s.rx.first = false → s.rx.winAnchor ≤ s.rxTime ∧ s.rx.fpsT0 ≤ s.rxTime

/-- The states a device can reach: from power-on with any choice of the open parameters, by steps, by bytes that
arrive at the port, and by the end of the input. -/
inductive Reachable : State → Prop where
  | reset (c : Config) : Reachable { State.reset with config := c }
  | arrive {s : State} (bytes : List Byte) : Reachable s → s.inputEnded = false →
      Reachable { s with port := s.port ++ bytes }
  | endInput {s : State} : Reachable s → Reachable { s with inputEnded := true }
  | step {s s' : State} : Reachable s → step s = .next s' → Reachable s'

/-- What a frame that passes the gates of activity, time, context and readiness puts into the window as a sample `b`:
its brightness, which RX_BRIGHT then is (rules R120, R126); or, where it fails or has no pixels and the device's parameters
list it as corrupted, the listed sample, with RX_BRIGHT as it was and the fault logged (93 entry U5, log entry 22). -/
def FrameTakes (s : State) (ts : BitVec 64) (fail : Bool) (px : List Pixel) (b bright : Rat) (logged : List Event) :
    Prop :=
  (fail = false ∧ px ≠ [] ∧ b = frameBrightness px ∧ bright = b ∧ logged = []) ∨
  ((fail = true ∨ px = []) ∧ failedSample s.config ts = some b ∧ bright = s.rx.bright ∧
    logged = [.log .runtimeCaptureError ts])

/-- A command of the TX instance: bit 4 of its opcode is 0 (rule R77). -/
def isTx (i : Instr) : Bool := !(opcodeByte (instrOpcode i)).getLsbD 4

/-- The commands of a list executed whole, one after the other (rule R60). -/
def execAll : List Instr → State → Result
  | [], s => .next s
  | i :: is, s =>
    match exec i s with
    | .next s' => execAll is s'
    | .fault r => .fault r
    | .refused r => .refused r

/-- The bits CLASSIFY returns for a sequence of means (rule R146). -/
def classifyAll (threshold : Rat) : Classifier → List Rat → List Bool
  | _, [] => []
  | cls, m :: ms =>
    let bit := classifyBit threshold cls m
    bit :: classifyAll threshold (classifierAfter bit) ms

end Sys2Proof.Machine
end

