-- ==== Sys2Proof/Certificates/Slice0/Obligations.lean ====
section
/-! DEFINITION. The statements for the provers: what the numbered rules of the spec say a command or the device
does. Each next state is given whole, so that it is also the command's frame: a register, a port byte or an output
that an equation does not name is unchanged. -/

open Sys2Proof Sys2Proof.Machine

/-! ## Packets -/

/-- Decoding the packet of a well-formed command gives the command back and leaves the bytes after it, with every
operand at every value the encoding admits (rules R70 to R77, R80). -/
def Obligations.DecodeOfEncodeIsTheCommand : Prop :=
  ∀ (i : Instr) (rest : List Byte), i.wf = true → decode (encode i ++ rest) = .command i rest

/-- Whatever the decoder accepts is exactly a well-formed command's packet: nothing malformed is accepted, and two
packets never mean the same command (rules R70 to R79). -/
def Obligations.DecodedPacketIsTheEncoding : Prop :=
  ∀ (bs : List Byte) (i : Instr) (rest : List Byte), decode bs = .command i rest → i.wf = true ∧ bs = encode i ++ rest

/-- Rule R78: which opening bytes are reserved, and that such a packet is one byte long and refused. -/
def Obligations.ReservedOpcodeIsRefused : Prop :=
  (∀ b : Byte, opcodeOf b = none ↔ (b.toNat = 0 ∨ (6 ≤ b.toNat ∧ b.toNat ≤ 0x10) ∨ 0x16 ≤ b.toNat)) ∧
  ∀ (b : Byte) (rest : List Byte) (s : State), opcodeOf b = none → s.port = b :: rest →
    decode s.port = .reject .reservedOpcode rest ∧
    step s = .next { s with port := rest, response := some ⟨.illegalCommand, .nothing⟩, events := [] }

/-- Rule R79, the malformed packets that have arrived whole: a reserved flag bit of format D or F, and a camera
identifier length without its flag. That a malformed packet takes the bytes rule R80 gives it is the model's reading
(log entry 3). -/
def Obligations.MalformedPacketIsRejectedByName : Prop :=
  ∀ bs : List Byte,
    (bs.head? = some 0x11 → packetLength .fmtD bs ≤ bs.length → (byteAt bs 1).extractLsb' 4 4 ≠ 0 →
      decode bs = .reject .reservedFlag (bs.drop (packetLength .fmtD bs))) ∧
    (bs.head? = some 0x11 → packetLength .fmtD bs ≤ bs.length → (byteAt bs 1).extractLsb' 4 4 = 0 →
      (byteAt bs 1).getLsbD 3 = false → byteAt bs (12 + fieldNat bs 10 2) ≠ 0 →
      decode bs = .reject .cidWithoutFlag (bs.drop (packetLength .fmtD bs))) ∧
    (bs.head? = some 0x12 → packetLength .fmtF bs ≤ bs.length → (byteAt bs 9).extractLsb' 3 5 ≠ 0 →
      decode bs = .reject .reservedFlag (bs.drop (packetLength .fmtF bs)))

/-- A packet of a legal opcode that is shorter than rule R80 says waits for its last byte while more input may come
(rule R70) and is refused when the input has ended (rule R79), also when the bytes there are already show a reserved
flag bit; every proper non-empty beginning of a well-formed command's packet is so short. The end-of-input mark is the
model's choice (log entry 2), and so is that the waiting step clears the outputs (log entry 4). -/
def Obligations.UnfinishedPacketWaitsOrIsRefused : Prop :=
  (∀ (s : State) (b : Byte) (o : Opcode), s.port.head? = some b → opcodeOf b = some o →
    s.port.length < packetLength (opcodeFormat o) s.port →
    decode s.port = .reject .truncated [] ∧
    (s.inputEnded = false → step s = .next { s with response := none, events := [] }) ∧
    (s.inputEnded = true →
      step s = .next { s with port := [], response := some ⟨.illegalCommand, .nothing⟩, events := [] })) ∧
  (∀ (i : Instr) (n : Nat), i.wf = true → 0 < n → n < (encode i).length →
    ∃ b o, ((encode i).take n).head? = some b ∧ opcodeOf b = some o ∧
      ((encode i).take n).length < packetLength (opcodeFormat o) ((encode i).take n))

/-- A few packets written out from the tables of 30_encoding.md (95_test_vectors.md B1) decode to their commands; and
the numbers of the enumerated registers, colours and status codes, as rules R25, R28, R35, R36, R38 and R192 write
them. -/
def Obligations.SampleWordsDecode : Prop :=
  decode [0x01, 0x88, 0x13, 0, 0, 0, 0, 0, 0, 0x00, 0x00, 0x3C, 0x00, 0x02, 0x00, 0x30, 0x31]
    = .command (.txStart 5000 0x003C0000 [0x30, 0x31]) [] ∧
  decode [0x02, 0x00, 0xA6, 0x0E, 0, 0, 0, 0, 0, 0x04] = .command (.txTick 960000) [0x04] ∧
  decode [0x11, 0x0F, 0x00, 0x00, 0xD0, 0x02, 0x00, 0x00, 0x64, 0x00, 0x02, 0x00, 0x31, 0x30, 0x04, 0x63, 0x61, 0x6D, 0x30]
    = .command (.rxStart true true true (some [0x63, 0x61, 0x6D, 0x30]) 0 720 0x00640000 [0x31, 0x30]) [] ∧
  decode [0x12, 0x40, 0x9C, 0, 0, 0, 0, 0, 0, 0x07, 0x01, 0, 0, 0, 0x01, 0x02, 0x03]
    = .command (.rxFrame 40000 true true true [⟨1, 2, 3⟩]) [] ∧
  ([Phase.idle, .cal, .run].map phaseLabel = [0, 1, 2]) ∧
  ([none, some false, some true].map bitLabel = [0, 2, 3]) ∧
  ([Classifier.unknown, .lastWasZero, .lastWasOne].map classifierLabel = [0, 1, 2]) ∧
  ([MatchResult.none, .granted].map matchLabel = [0, 1]) ∧
  ([Color.dark, .light].map colorLabel = [0, 1]) ∧
  ([Status.ok, .invalidCodeFormat, .missingCaptureSurface, .cameraAcquisitionFailure, .runtimeCaptureError,
    .illegalCommand].map statusCode = [0x00, 0x01, 0x02, 0x03, 0x04, 0x7F])

/-! ## The step -/

/-- When the bytes at the port open with a command's packet, a step removes the packet and executes the command, and
does nothing else around it. -/
def Obligations.StepRunsTheDecodedCommand : Prop :=
  ∀ (s : State) (i : Instr) (rest : List Byte), decode s.port = .command i rest → step s = exec i { s with port := rest }

/-- A packet that is no command is removed and answered `IllegalCommand`; no register changes and no event is
emitted (rule R191). -/
def Obligations.StepRefusesAPacketThatIsNoCommand : Prop :=
  ∀ (s : State) (why : Reject) (rest : List Byte), decode s.port = .reject why rest → why ≠ .truncated →
    step s = .next { s with port := rest, response := some ⟨.illegalCommand, .nothing⟩, events := [] }

/-- With nothing at the port the device waits (rule R215); that the waiting step clears the outputs is the model's
choice (log entry 4). -/
def Obligations.StepWaitsWithoutInput : Prop :=
  ∀ s : State, s.port = [] → step s = .next { s with response := none, events := [] }

/-- The packets of any list of well-formed commands are executed one at a time, each completely, in the order in
which their bytes stand at the port (rule R60). That the port is a list of bytes in the state, one packet taken by one
step, is the model's choice (log entry 1). -/
def Obligations.PacketsExecuteInArrivalOrder : Prop :=
  ∀ (is : List Instr) (s : State), (∀ i ∈ is, i.wf = true) → s.port = is.flatMap encode →
    Host.Core.run Sys2Proof.core is.length s = execAll is { s with port := [] }

/-- No command changes the bytes at the port, the end-of-input mark or the device's open parameters, and every command
that goes on has answered (rule R81). The port and the mark are fields of the model's own (log entries 1 and 2), and so
are the parameters (log entry 10). -/
def Obligations.CommandsLeaveThePortAndAnswer : Prop :=
  ∀ (i : Instr) (s s' : State), exec i s = .next s' →
    s'.port = s.port ∧ s'.inputEnded = s.inputEnded ∧ s'.config = s.config ∧ s'.response.isSome = true

/-! ## Unit U1: the transmitter -/

/-- Rule R92: a code that is empty or holds a symbol other than '0' and '1' is refused before any register is
touched, also while a run is active. -/
def Obligations.TxStartRefusesANonBinaryCode : Prop :=
  ∀ (now : BitVec 64) (fps : BitVec 32) (code : List Symbol) (s : State),
    (code = [] ∨ ∃ x ∈ code, x ≠ 0x30 ∧ x ≠ 0x31) →
    exec (.txStart now fps code) s =
      .next { s with response := some ⟨.invalidCodeFormat, .nothing⟩, events := [] }

/-- Rules R93 and R94: an accepted start stops the prior run, loads the code and begins the calibration; from a state
that meets the invariant every other TX register is at its reset value and COLOR_OUT is DARK. The time held for rule
R226 is the model's own (log entry 6). -/
def Obligations.TxStartLoadsTheCodeAndCalibrates : Prop :=
  ∀ (now : BitVec 64) (fps : BitVec 32) (code : List Symbol) (s : State),
    code ≠ [] → (∀ x ∈ code, x = 0x30 ∨ x = 0x31) →
    exec (.txStart now fps code) s = .next { s with
      tx := { (if s.tx.active then TxState.reset else s.tx) with
        active := true, phase := .cal, code := code.map (fun x => x == 0x31)
        targetFps := (fps.toInt : Rat) / 65536, calT0 := (now.toNat : Rat) / 1000, calCount := 0 }
      txTime := (now.toNat : Rat) / 1000
      response := some ⟨.ok, .nothing⟩, events := [] } ∧
    (TxInv s.tx → ∀ s', exec (.txStart now fps code) s = .next s' →
      s'.tx = { TxState.reset with
        active := true, phase := .cal, code := code.map (fun x => x == 0x31)
        targetFps := (fps.toInt : Rat) / 65536, calT0 := (now.toNat : Rat) / 1000, calCount := 0 } ∧
      colorOut s'.tx = .dark)

/-- Rule R95 (and R86 for IDLE): a tick when no registration is pending changes nothing and answers OK. -/
def Obligations.TxTickWithoutARunDoesNothing : Prop :=
  ∀ (ts : BitVec 64) (s : State), s.tx.active = false ∨ s.tx.phase = .idle →
    exec (.txTick ts) s = .next { s with response := some ⟨.ok, .nothing⟩, events := [] }

/-- Rule R96: a calibration callback that is not the 60th, at a time that rule R226 allows (not before the run's latest
callback nor before its start), changes no register but TX_CAL_COUNT. The time held for rule R226 is the model's own (log
entry 6). -/
def Obligations.CalibrationTickOnlyCounts : Prop :=
  ∀ (ts : BitVec 64) (s : State), s.tx.active = true → s.tx.phase = .cal → s.tx.calCount + 1 ≠ 60 →
    s.txTime ≤ (ts.toNat : Rat) / 1000 → s.tx.calT0 ≤ (ts.toNat : Rat) / 1000 →
    exec (.txTick ts) s = .next { s with
      tx := { s.tx with calCount := s.tx.calCount + 1 }
      txTime := (ts.toNat : Rat) / 1000
      response := some ⟨.ok, .nothing⟩, events := [] }

/-- Rules R97, R98, R99: the 60th calibration callback, at a time that rule R226 allows, fixes the rate and the bit
duration and begins the loop; the raw rate is rounded by the device's CAL_ROUND. The expression of the raw rate is the
spec's default (log entry 23), CAL_ROUND is a parameter the device carries (log entry 10), and the time held for rule R226
is the model's own (log entry 6). -/
def Obligations.SixtiethTickBeginsTheLoop : Prop :=
  ∀ (ts : BitVec 64) (s : State) (bit : Bool), s.tx.active = true → s.tx.phase = .cal → s.tx.calCount = 59 →
    s.tx.code[0]? = some bit →
    let t : Rat := (ts.toNat : Rat) / 1000
    s.txTime ≤ t → s.tx.calT0 ≤ t →
    let raw : Rat := 60 * 1000 / (t - s.tx.calT0)
    let measured : Rat := if 0 < t - s.tx.calT0 then max 30 (min 120 (roundRate s.config raw)) else 120
    let effective : Rat := max 30 (min 120 (min measured s.tx.targetFps))
    exec (.txTick ts) s = .next { s with
      tx := { s.tx with
        calCount := 60, effRate := effective
        bitDur := 1000 / effective * ((max 1 ⌊effective / 30⌋ : Int) : Rat)
        measFps := measured, epoch := t, fpsT0 := t, fpsCount := 0
        bitIndex := 0, curBit := some bit, phase := .run }
      txTime := t
      response := some ⟨.ok, .nothing⟩, events := [.txUpdate (some bit)] }

/-- Rule R97 with CAL_ROUND as a parameter (93 entries U2, U3): whatever the rounding, the calibrated rate is in 30 to
120, every rate of that range is the result of some rounding when time has passed, and no time passed gives 120. The
roundings are functions of rates: the identity, floor, the nearest whole rate, a free one for each number, and any of
these changed at finitely many rates to any values. That a device holds its CAL_ROUND as one of these names, and what
each rule for ties gives, is the model's choice (log entries 10, 26). -/
def Obligations.CalibratedRateRange : Prop :=
  (∀ (c : Config) (elapsed : Rat), 30 ≤ measuredRate c elapsed ∧ measuredRate c elapsed ≤ 120) ∧
  (∀ (c : Config) (elapsed rate : Rat), 0 < elapsed → 30 ≤ rate → rate ≤ 120 →
    ∃ r, measuredRate { c with calRound := r } elapsed = rate) ∧
  (∀ (c : Config) (elapsed : Rat), elapsed ≤ 0 → measuredRate c elapsed = 120) ∧
  (∀ (c : Config) (raw : Rat),
    roundRate { c with calRound := .identity } raw = raw ∧
    roundRate { c with calRound := .floor } raw = (⌊raw⌋ : Rat) ∧
    (∀ ties, ∃ k : Int, roundRate { c with calRound := .nearest ties } raw = (k : Rat) ∧
      raw - 1 / 2 ≤ (k : Rat) ∧ (k : Rat) ≤ raw + 1 / 2) ∧
    (raw - (⌊raw⌋ : Rat) = 1 / 2 →
      roundRate { c with calRound := .nearest .up } raw = (⌊raw⌋ : Rat) + 1 ∧
      roundRate { c with calRound := .nearest .down } raw = (⌊raw⌋ : Rat) ∧
      ∃ k : Int, roundRate { c with calRound := .nearest .even } raw = 2 * (k : Rat)) ∧
    ∀ n, roundRate { c with calRound := .other n } raw = Config.otherCalRound n raw) ∧
  (∀ (c : Config) (f : Rat → Rat) (raws : List Rat),
    ∃ r, ∀ raw, (raw ∈ raws → roundRate { c with calRound := r } raw = f raw) ∧
      (raw ∉ raws → roundRate { c with calRound := r } raw = roundRate c raw))

/-- Rule R98: the effective rate, the frame duration, the multiplier and the bit duration, with their ranges. -/
def Obligations.BitDurationFollowsTheEffectiveRate : Prop :=
  ∀ measured target : Rat,
    let e := effectiveRate measured target
    e = max 30 (min 120 (min measured target)) ∧
    bitDuration e = 1000 / e * ((max 1 ⌊e / 30⌋ : Int) : Rat) ∧
    25 / 3 ≤ 1000 / e ∧ 1000 / e ≤ 100 / 3 ∧
    (30 ≤ e ∧ e < 60 → (max 1 ⌊e / 30⌋ : Int) = 1) ∧
    (60 ≤ e ∧ e < 90 → (max 1 ⌊e / 30⌋ : Int) = 2) ∧
    (90 ≤ e ∧ e < 120 → (max 1 ⌊e / 30⌋ : Int) = 3) ∧
    (e = 120 → (max 1 ⌊e / 30⌋ : Int) = 4) ∧
    1 ≤ ⌊e / 30⌋ ∧
    50 / 3 < bitDuration e ∧ bitDuration e ≤ 100 / 3 ∧
    (bitDuration e = 100 / 3 ↔ e = 30 ∨ e = 60 ∨ e = 90 ∨ e = 120)

/-- Rules R100, R101, R102: a RUN tick recomputes the index from the elapsed time, shows the bit and emits the update
only when the index changed, and counts the frame. The time held for rule R226 is the model's own (log entry 6). -/
def Obligations.RunTickShowsTheBitOfItsTime : Prop :=
  ∀ (ts : BitVec 64) (s : State), s.tx.active = true → s.tx.phase = .run → s.tx.code ≠ [] → 0 < s.tx.bitDur →
    s.txTime ≤ (ts.toNat : Rat) / 1000 → s.tx.epoch ≤ (ts.toNat : Rat) / 1000 → s.tx.fpsT0 ≤ (ts.toNat : Rat) / 1000 →
    let t : Rat := (ts.toNat : Rat) / 1000
    let idx : Nat := (⌊(t - s.tx.epoch) / s.tx.bitDur⌋ % (s.tx.code.length : Int)).toNat
    idx < s.tx.code.length ∧
    exec (.txTick ts) s = .next { s with
      tx := { s.tx with
        bitIndex := idx
        curBit := if idx = s.tx.bitIndex then s.tx.curBit else s.tx.code[idx]?
        measFps := if 1000 ≤ t - s.tx.fpsT0 then ((s.tx.fpsCount + 1 : Nat) : Rat) else s.tx.measFps
        fpsCount := if 1000 ≤ t - s.tx.fpsT0 then 0 else s.tx.fpsCount + 1
        fpsT0 := if 1000 ≤ t - s.tx.fpsT0 then t else s.tx.fpsT0 }
      txTime := t
      response := some ⟨.ok, .nothing⟩
      events := if idx = s.tx.bitIndex then [] else [.txUpdate s.tx.code[idx]?] }

/-- Rule R226 (93 entry U1): a tick of a run whose time runs backwards is refused, in CAL and in RUN: before the run's
latest callback or its start, before TX_CAL_T0, before the epoch, before TX_FPS_T0. That the latest time is held in a
field of its own is the model's (log entry 6). -/
def Obligations.RunTickBeforeItsRunIsRefused : Prop :=
  ∀ (ts : BitVec 64) (s : State), s.tx.active = true →
    let t : Rat := (ts.toNat : Rat) / 1000
    (s.tx.phase = .cal → t < s.txTime ∨ t < s.tx.calT0 → exec (.txTick ts) s = .refused .timeBackwards) ∧
    (s.tx.phase = .run → t < s.txTime ∨ t < s.tx.epoch ∨ t < s.tx.fpsT0 →
      exec (.txTick ts) s = .refused .timeBackwards)

/-- Rule R103: the index as a function of elapsed time is periodic with period `L × D`, is `k mod L` on each
interval `[kD, (k+1)D)`, and so visits the indices in order. -/
def Obligations.BitIndexIsPeriodic : Prop :=
  ∀ (D : Rat) (L : Nat), 0 < D → 0 < L →
    (∀ e : Rat, 0 ≤ e → bitIndexAt (e + (L : Rat) * D) D L = bitIndexAt e D L) ∧
    (∀ (e : Rat) (k : Nat), (k : Rat) * D ≤ e → e < ((k + 1 : Nat) : Rat) * D → bitIndexAt e D L = k % L)

/-- Rule R104: `TX.STOP` leaves every TX register at its reset value, emits nothing and makes COLOR_OUT DARK. -/
def Obligations.TxStopClearsTheTransmitter : Prop :=
  encode .txStop = [0x03] ∧
  ∀ s : State,
    exec .txStop s = .next { s with tx := TxState.reset, response := some ⟨.ok, .nothing⟩, events := [] } ∧
    colorOut TxState.reset = .dark

/-- Rule R105: a second `TX.STOP` changes nothing, and one on an inactive instance writes the values already held. -/
def Obligations.TxStopIsIdempotent : Prop :=
  (∀ s s' : State, exec .txStop s = .next s' → exec .txStop s' = .next s') ∧
  (∀ s : State, TxInv s.tx → s.tx.active = false →
    exec .txStop s = .next { s with response := some ⟨.ok, .nothing⟩, events := [] })

/-- Rule R106: `TX.COLOR` answers LIGHT exactly for the bit '1', writes nothing, and answers DARK in IDLE and CAL. -/
def Obligations.TxColorReadsTheVisibleBit : Prop :=
  encode .txColor = [0x04] ∧
  ∀ s : State,
    exec .txColor s = .next { s with
      response := some ⟨.ok, .color (if s.tx.curBit = some true then .light else .dark)⟩, events := [] } ∧
    (TxInv s.tx → s.tx.phase ≠ .run → colorOut s.tx = .dark)

/-- Rule R107: `TX.STATUS` answers the four observable values and writes nothing. -/
def Obligations.TxStatusReadsTheObservableState : Prop :=
  encode .txStatus = [0x05] ∧
  ∀ s : State, exec .txStatus s = .next { s with
    response := some ⟨.ok, .txStatus ⟨s.tx.active, s.tx.bitIndex, s.tx.curBit, s.tx.measFps⟩⟩, events := [] }

/-- Rule R86 line 1: no command moves TX_PHASE but along the transitions of the phase machine. -/
def Obligations.TxPhaseMovesOnlyByItsTransitions : Prop :=
  ∀ (i : Instr) (s s' : State), TxInv s.tx → exec i s = .next s' → s'.tx.phase ≠ s.tx.phase →
    ((s.tx.phase = .idle ∨ s.tx.phase = .run) ∧ s'.tx.phase = .cal ∧
      ∃ now fps code, i = .txStart now fps code ∧ isBinaryCode code = true) ∨
    (s.tx.phase = .cal ∧ s'.tx.phase = .run ∧ s.tx.calCount = 59 ∧ ∃ ts, i = .txTick ts) ∨
    (s'.tx.phase = .idle ∧ i = .txStop)

/-- Rule R198: an update of the visible bit is emitted exactly when the loop begins, at index 0, and when a RUN tick
changes the index, and it carries the new TX_CUR_BIT. -/
def Obligations.TxUpdateMarksExactlyTheIndexChanges : Prop :=
  ∀ (i : Instr) (s s' : State), exec i s = .next s' →
    (∀ b, Event.txUpdate b ∈ s'.events →
      (∃ ts, i = .txTick ts) ∧ b = s'.tx.curBit ∧
      ((s.tx.phase = .cal ∧ s'.tx.phase = .run ∧ s'.tx.bitIndex = 0) ∨
        (s.tx.phase = .run ∧ s'.tx.phase = .run ∧ s'.tx.bitIndex ≠ s.tx.bitIndex))) ∧
    ((s.tx.phase = .cal ∧ s'.tx.phase = .run) ∨ (s'.tx.phase = .run ∧ s'.tx.bitIndex ≠ s.tx.bitIndex) →
      Event.txUpdate s'.tx.curBit ∈ s'.events)

/-! ## The decoder's control commands -/

/-- Rule R166 step 1, rule R187: without a capture source or a drawing target the start is refused and nothing
changes, also while a run is active. -/
def Obligations.RxStartNeedsItsCaptureSurface : Prop :=
  ∀ (video draw grant : Bool) (cid : Option (List Byte)) (w h : BitVec 16) (thr : BitVec 32) (e : List Symbol)
    (s : State), video = false ∨ draw = false →
    exec (.rxStart video draw grant cid w h thr e) s =
      .next { s with response := some ⟨.missingCaptureSurface, .nothing⟩, events := [] }

/-- Rules R167 and R169: after the surface check a start stops a prior run, sizes the drawing target and requests the
camera; refused, it fails and leaves detection inactive; granted, it resets the decoding state, loads its operands
and is active. Its expected code is unchecked (RX_VALIDATE_CODE false, the default), empty, or binary; under the check
the next statement covers any other. -/
def Obligations.RxStartRunsItsSequence : Prop :=
  ∀ (cid : Option (List Byte)) (w h : BitVec 16) (thr : BitVec 32) (e : List Symbol) (s : State),
    (s.config.rxValidateCode = false ∨ e = [] ∨ isBinaryCode e = true) →
    exec (.rxStart true true false cid w h thr e) s = .next { s with
      rx := { s.rx with
        active := false
        stream := if s.rx.active then [] else s.rx.stream
        cls := if s.rx.active then .unknown else s.rx.cls
        matchResult := if s.rx.active then .none else s.rx.matchResult
        drawW := if w = 0 then 640 else w, drawH := if h = 0 then 480 else h }
      response := some ⟨.cameraAcquisitionFailure, .nothing⟩
      events := (if s.rx.active then [.camRelease] else []) ++ [.camAcquire ⟨cid, 640, 480, 30, 15⟩] } ∧
    exec (.rxStart true true true cid w h thr e) s = .next { s with
      rx := { s.rx with
        active := true
        stream := [], cls := .unknown, matchResult := .none
        threshold := (thr.toInt : Rat) / 65536, expected := e
        win := [], first := true, fpsCount := 0, measFps := 0
        drawW := if w = 0 then 640 else w, drawH := if h = 0 then 480 else h }
      response := some ⟨.ok, .nothing⟩
      events := (if s.rx.active then [.camRelease] else []) ++ [.camAcquire ⟨cid, 640, 480, 30, 15⟩] }

/-- Rule R168 on a device with RX_VALIDATE_CODE true: a non-empty non-binary expected code is refused after the surface
check and before anything else; a binary or empty one starts as on the same device without the check. -/
def Obligations.RxStartUnderCodeValidation : Prop :=
  ∀ (grant : Bool) (cid : Option (List Byte)) (w h : BitVec 16) (thr : BitVec 32) (e : List Symbol) (s : State),
    s.config.rxValidateCode = true →
    ((∃ x ∈ e, x ≠ 0x30 ∧ x ≠ 0x31) →
      exec (.rxStart true true grant cid w h thr e) s =
        .next { s with response := some ⟨.invalidCodeFormat, .nothing⟩, events := [] }) ∧
    ((∀ x ∈ e, x = 0x30 ∨ x = 0x31) →
      ∃ t, exec (.rxStart true true grant cid w h thr e)
          { s with config := { s.config with rxValidateCode := false } } = .next t ∧
        exec (.rxStart true true grant cid w h thr e) s = .next { t with config := s.config })

/-- Rule R170: `RX.STOP` releases a held camera, clears the three entities and the active flag, and writes no other
register. -/
def Obligations.RxStopClearsTheThreeEntities : Prop :=
  encode .rxStop = [0x13] ∧
  ∀ s : State, exec .rxStop s = .next { s with
    rx := { s.rx with active := false, stream := [], cls := .unknown, matchResult := .none }
    response := some ⟨.ok, .nothing⟩
    events := if s.rx.active then [.camRelease] else [] }

/-- Rule R171: a second `RX.STOP` emits nothing and changes nothing. -/
def Obligations.RxStopIsIdempotent : Prop :=
  ∀ s s' : State, exec .rxStop s = .next s' → exec .rxStop s' = .next { s' with events := [] }

/-- Rule R172: `RX.RESET` clears the three entities and nothing else: the instance, the window and its anchor go on. -/
def Obligations.RxResetKeepsTheCapturePipeline : Prop :=
  encode .rxReset = [0x14] ∧
  ∀ s : State, exec .rxReset s = .next { s with
    rx := { s.rx with stream := [], cls := .unknown, matchResult := .none }
    response := some ⟨.ok, .nothing⟩, events := [] }

/-- Rule R173: `RX.STATUS` answers the observable state, the stream as symbols oldest first, and writes nothing; in a
state that meets the invariant its match is None. -/
def Obligations.RxStatusReadsTheObservableState : Prop :=
  encode .rxStatus = [0x15] ∧
  ∀ s : State,
    exec .rxStatus s = .next { s with
      response := some ⟨.ok, .rxStatus
        ⟨s.rx.active, s.rx.bright, s.rx.lastBit, s.rx.stream.map (fun b => if b then 0x31 else 0x30), s.rx.measFps,
          s.rx.matchResult, s.rx.drawW, s.rx.drawH⟩⟩
      events := [] } ∧
    (RxInv s.rx → s.rx.matchResult = .none)

/-- Rule R86 line 2: the RX instance becomes active only by a granted start, and inactive only by a stop, by a match
inside `RX.FRAME`, or by a start that passes its surface check and is refused the camera. -/
def Obligations.RxActivityMovesOnlyByItsTransitions : Prop :=
  ∀ (i : Instr) (s s' : State), exec i s = .next s' →
    (s.rx.active = false → s'.rx.active = true →
      ∃ cid w h thr e, i = .rxStart true true true cid w h thr e) ∧
    (s.rx.active = true → s'.rx.active = false →
      i = .rxStop ∨ (∃ cid w h thr e, i = .rxStart true true false cid w h thr e) ∨
      ∃ ts fail px snapshot, i = .rxFrame ts true true fail px ∧ Event.matched snapshot ∈ s'.events)

/-! ## RX.FRAME -/

/-- Rule R121: a frame for an inactive instance does nothing at all. -/
def Obligations.FrameWithoutARunDoesNothing : Prop :=
  ∀ (ts : BitVec 64) (ready ctx fail : Bool) (px : List Pixel) (s : State), s.rx.active = false →
    exec (.rxFrame ts ready ctx fail px) s = .next { s with response := some ⟨.ok, .nothing⟩, events := [] }

/-- Rule R122: a frame without a drawing context or without buffered data, at a time that rule R226 allows, is skipped
silently, also when it fails (rule R193 line 4). That rule R226's "every frame" takes in a skipped one is the model's
reading (log entry 6). -/
def Obligations.UnreadyFrameIsSkippedSilently : Prop :=
  ∀ (ts : BitVec 64) (ready ctx fail : Bool) (px : List Pixel) (s : State), s.rx.active = true →
    ctx = false ∨ ready = false →
    (s.rx.first = false → s.rxTime ≤ (ts.toNat : Rat) / 1000 ∧ s.rx.winAnchor ≤ (ts.toNat : Rat) / 1000) →
    exec (.rxFrame ts ready ctx fail px) s = .next { s with response := some ⟨.ok, .nothing⟩, events := [] }

/-- Rule R123: a failing frame and a frame without pixels, at a time that rule R226 allows, change no register; the fault
is logged and never returned. That is so for every frame that the device's parameters do not list as corrupted (93 entry
U5, log entry 22), and the spec's default lists none; a listed one has a sample in 0 to 255, with which the statements on
processed frames go on. -/
def Obligations.FailedFrameIsOnlyLogged : Prop :=
  ∀ (ts : BitVec 64) (fail : Bool) (px : List Pixel) (s : State), s.rx.active = true → fail = true ∨ px = [] →
    (s.rx.first = false → s.rxTime ≤ (ts.toNat : Rat) / 1000 ∧ s.rx.winAnchor ≤ (ts.toNat : Rat) / 1000) →
    (failedSample s.config ts = none →
      exec (.rxFrame ts true true fail px) s = .next { s with
        response := some ⟨.ok, .nothing⟩, events := [.log .runtimeCaptureError ts] }) ∧
    (s.config.failedFrames = [] → failedSample s.config ts = none) ∧
    (∀ b, failedSample s.config ts = some b →
      0 ≤ b ∧ b ≤ 255 ∧ ∃ q, (ts, q) ∈ s.config.failedFrames ∧ b = max 0 (min 255 q))

/-- Rules R126, R127, R129, R130: a processed frame before the close point, at a time that rule R226 allows, records its
brightness, anchors the first window, counts, and adds its sample to the window. A failed frame that the device's
parameters list as corrupted does the same with its listed sample but records no brightness (log entry 22). A window
below WIN_MAX keeps every sample; which of a full one stay, at most WIN_MAX - 1, is a free value (log entry 25). The time
held for rule R226 is the model's own (log entry 6). -/
def Obligations.FrameBeforeTheClosePointAccumulates : Prop :=
  ∀ (ts : BitVec 64) (fail : Bool) (px : List Pixel) (s : State) (b bright : Rat) (logged : List Event),
    s.rx.active = true → FrameTakes s ts fail px b bright logged →
    let t : Rat := (ts.toNat : Rat) / 1000
    let anchor : Rat := if s.rx.first then t else s.rx.winAnchor
    let t0 : Rat := if s.rx.first then t else s.rx.fpsT0
    let kept : List Rat := windowKeeps s.config s.rx.win b
    (s.rx.first = false → s.rxTime ≤ t) → anchor ≤ t → t - anchor < 80 / 3 →
    exec (.rxFrame ts true true fail px) s = .next { s with
      rx := { s.rx with
        bright := bright, first := false, winAnchor := anchor
        fpsCount := if 1000 ≤ t - t0 then 0 else s.rx.fpsCount + 1
        measFps := if 1000 ≤ t - t0 then ((s.rx.fpsCount + 1 : Nat) : Rat) else s.rx.measFps
        fpsT0 := if 1000 ≤ t - t0 then t else t0
        win := kept ++ [b] }
      rxTime := t
      response := some ⟨.ok, .nothing⟩, events := logged } ∧
    ((∀ n, s.config.winMax = some n → s.rx.win.length < n) → kept = s.rx.win) ∧
    kept.Sublist s.rx.win ∧ (∀ n, s.config.winMax = some n → kept.length ≤ n - 1)

/-- Rule R131 with rules R142 to R145, R151 and R152: a frame at or after the close point decides one bit from the
mean of the window with its own sample in it, appends it, empties the window and anchors it at its own time; without
a match the run goes on. The samples kept, the corrupted frame and the held time are as in the statement before (log
entries 25, 22, 6). -/
def Obligations.FrameAtTheClosePointDecidesABit : Prop :=
  ∀ (ts : BitVec 64) (fail : Bool) (px : List Pixel) (s : State) (b bright : Rat) (logged : List Event),
    s.rx.active = true → FrameTakes s ts fail px b bright logged → s.rx.first = false →
    s.rxTime ≤ (ts.toNat : Rat) / 1000 → 80 / 3 ≤ (ts.toNat : Rat) / 1000 - s.rx.winAnchor →
    let t : Rat := (ts.toNat : Rat) / 1000
    let win : List Rat := windowKeeps s.config s.rx.win b ++ [b]
    let bit : Bool := classifyBit s.rx.threshold s.rx.cls (win.sum / (win.length : Rat))
    (s.rx.expected = [] ∨ patternFound s.rx.expected (appendBit bit s.rx.stream) = false) →
    exec (.rxFrame ts true true fail px) s = .next { s with
      rx := { s.rx with
        bright := bright, win := [], winAnchor := t
        fpsCount := if 1000 ≤ t - s.rx.fpsT0 then 0 else s.rx.fpsCount + 1
        measFps := if 1000 ≤ t - s.rx.fpsT0 then ((s.rx.fpsCount + 1 : Nat) : Rat) else s.rx.measFps
        fpsT0 := if 1000 ≤ t - s.rx.fpsT0 then t else s.rx.fpsT0
        cls := if bit then .lastWasOne else .lastWasZero, lastBit := some bit
        stream := appendBit bit s.rx.stream }
      rxTime := t
      response := some ⟨.ok, .nothing⟩, events := logged }

/-- Rule R155: when the search finds the expected code, the event carries the status record with Granted, and then
every write and event of the stop clears it again; the answer is still OK. The samples kept, the corrupted frame and the
held time are as in the statement before (log entries 25, 22, 6). -/
def Obligations.MatchIsReportedAndStopsTheRun : Prop :=
  ∀ (ts : BitVec 64) (fail : Bool) (px : List Pixel) (s : State) (b bright : Rat) (logged : List Event),
    s.rx.active = true → FrameTakes s ts fail px b bright logged → s.rx.first = false →
    s.rxTime ≤ (ts.toNat : Rat) / 1000 → 80 / 3 ≤ (ts.toNat : Rat) / 1000 - s.rx.winAnchor →
    let t : Rat := (ts.toNat : Rat) / 1000
    let win : List Rat := windowKeeps s.config s.rx.win b ++ [b]
    let bit : Bool := classifyBit s.rx.threshold s.rx.cls (win.sum / (win.length : Rat))
    let fps : Rat := if 1000 ≤ t - s.rx.fpsT0 then ((s.rx.fpsCount + 1 : Nat) : Rat) else s.rx.measFps
    s.rx.expected ≠ [] → patternFound s.rx.expected (appendBit bit s.rx.stream) = true →
    exec (.rxFrame ts true true fail px) s = .next { s with
      rx := { s.rx with
        bright := bright, win := [], winAnchor := t
        fpsCount := if 1000 ≤ t - s.rx.fpsT0 then 0 else s.rx.fpsCount + 1
        measFps := fps
        fpsT0 := if 1000 ≤ t - s.rx.fpsT0 then t else s.rx.fpsT0
        lastBit := some bit
        active := false, stream := [], cls := .unknown, matchResult := .none }
      rxTime := t
      response := some ⟨.ok, .nothing⟩
      events := logged ++ [.matched ⟨true, bright, some bit, (appendBit bit s.rx.stream).map symOf, fps, .granted,
        s.rx.drawW, s.rx.drawH⟩, .camRelease] }

/-- Rule R226 (93 entry U1): a frame of an active run before the run's latest processed frame, or before the window's
anchor, is refused, whatever its flags and pixels. That the latest time is held in a field of its own, and that "every
frame" takes in a skipped and a failed one, is the model's reading (log entry 6). -/
def Obligations.FrameBeforeItsWindowIsRefused : Prop :=
  ∀ (ts : BitVec 64) (ready ctx fail : Bool) (px : List Pixel) (s : State), s.rx.active = true → s.rx.first = false →
    ((ts.toNat : Rat) / 1000 < s.rxTime ∨ (ts.toNat : Rat) / 1000 < s.rx.winAnchor) →
    exec (.rxFrame ts ready ctx fail px) s = .refused .timeBackwards

/-- Rule R197: the match event is emitted only by a frame of an active run, at most once in it and as the last event but
the release, with Granted in its snapshot, and the run has ended with None behind it. Only a frame that fails and is
listed as corrupted (log entry 22) has a log line before it. -/
def Obligations.MatchEventEndsItsRun : Prop :=
  ∀ (i : Instr) (s s' : State) (snapshot : RxStatus), exec i s = .next s' → Event.matched snapshot ∈ s'.events →
    (∃ ts fail px, i = .rxFrame ts true true fail px ∧
      (s'.events = [.matched snapshot, .camRelease] ∨
        (fail = true ∨ px = []) ∧ (failedSample s.config ts).isSome = true ∧
          s'.events = [.log .runtimeCaptureError ts, .matched snapshot, .camRelease])) ∧
    s.rx.active = true ∧ snapshot.active = true ∧ snapshot.matchResult = .granted ∧
    s'.rx.active = false ∧ s'.rx.matchResult = .none ∧ s'.rx.stream = [] ∧ s'.rx.cls = .unknown

/-! ## LUMA and BUCKET -/

/-- Rule R125: the luminance of a pixel is the exact weighted sum, a grey pixel's is its value, and it is in 0 to
255. -/
def Obligations.LuminanceIsTheExactWeightedSum : Prop :=
  ∀ p : Pixel,
    luma p = (2126 * (p.r.toNat : Rat) + 7152 * (p.g.toNat : Rat) + 722 * (p.b.toNat : Rat)) / 10000 ∧
    0 ≤ luma p ∧ luma p ≤ 255 ∧ ∀ v : Byte, luma ⟨v, v, v⟩ = (v.toNat : Rat)

/-- Rule R126: the subsample is the pixels 0, 10, 20, …, the brightness is its mean luminance, in 0 to 255. -/
def Obligations.BrightnessIsTheMeanOfEveryTenthPixel : Prop :=
  ∀ px : List Pixel,
    (∀ j : Nat, (sampledPixels px)[j]? = px[10 * j]?) ∧
    (sampledPixels px).length = (px.length + 9) / 10 ∧
    frameBrightness px = ((sampledPixels px).map luma).sum / (((px.length + 9) / 10 : Nat) : Rat) ∧
    0 ≤ frameBrightness px ∧ frameBrightness px ≤ 255

/-- Rule R128: the decoder's bit duration is 100/3 ms and its close point 80/3 ms; a transmitter's bit duration equals
it only at the effective rates 30, 60, 90 and 120. -/
def Obligations.DecoderBitDurationIsConstant : Prop :=
  rxBitDur = 100 / 3 ∧ closeAfter = 80 / 3 ∧
  ∀ e : Rat, 30 ≤ e → e ≤ 120 → (bitDuration e = rxBitDur ↔ e = 30 ∨ e = 60 ∨ e = 90 ∨ e = 120)

/-! ## CLASSIFY -/

/-- Rule R146: the classifier's table, and the sequence that the rule works out. -/
def Obligations.ClassifierFollowsItsTable : Prop :=
  (∀ T m : Rat,
    (classifyBit T .unknown m = true ↔ T < m) ∧
    (classifyBit T .lastWasOne m = true ↔ T - 20 ≤ m) ∧
    (classifyBit T .lastWasZero m = true ↔ T + 20 < m)) ∧
  classifierAfter true = .lastWasOne ∧ classifierAfter false = .lastWasZero ∧
  classifyAll 128 .unknown [150, 150, 100, 100, 60, 200] = [true, true, false, false, false, true]

/-- Rule R141: a decided classifier never flips while the means stay inside the dead band, however many there are. -/
def Obligations.DeadBandNeverFlipsTheBit : Prop :=
  ∀ (T : Rat) (last : Bool) (ms : List Rat), (∀ m ∈ ms, T - 20 ≤ m ∧ m ≤ T + 20) →
    classifyAll T (classifierAfter last) ms = List.replicate ms.length last

/-! ## APPEND and MATCH -/

/-- Rule R151: APPEND puts the bit at the end, and evicts the oldest bit exactly when the stream was full. -/
def Obligations.AppendEvictsOnlyTheOldestBit : Prop :=
  ∀ (bit : Bool) (stream : List Bool), stream.length ≤ 100 →
    appendBit bit stream = (if stream.length < 100 then stream else stream.drop 1) ++ [bit] ∧
    (appendBit bit stream).length ≤ 100 ∧ (appendBit bit stream).getLast? = some bit

/-- Rule R53: for any run length the stream is the newest 100 bits, in order. -/
def Obligations.StreamHoldsTheNewestHundredBits : Prop :=
  ∀ bits : List Bool, bits.foldl (fun stream b => appendBit b stream) [] = bits.drop (bits.length - 100)

/-- Rules R153 and R154: the search finds exactly a contiguous substring of the trailing window; a code with a symbol
other than '0' and '1', or longer than the stream can be, is never found. -/
def Obligations.SearchFindsExactlyASubstringOfTheWindow : Prop :=
  ∀ (expected : List Symbol) (stream : List Bool),
    (patternFound expected stream = true ↔
      expected <:+: (stream.map symOf).drop (stream.length - min stream.length (2 * expected.length))) ∧
    ((∃ x ∈ expected, x ≠ 0x30 ∧ x ≠ 0x31) → patternFound expected stream = false) ∧
    (stream.length ≤ 100 → 100 < expected.length → patternFound expected stream = false)

/-- Rule R157: in a state that meets the invariant, a match ends at the bit just appended. -/
def Obligations.MatchEndsAtTheNewBit : Prop :=
  ∀ (ts : BitVec 64) (ready ctx fail : Bool) (px : List Pixel) (s s' : State) (snapshot : RxStatus),
    RxInv s.rx → exec (.rxFrame ts ready ctx fail px) s = .next s' → Event.matched snapshot ∈ s'.events →
    s.rx.expected <:+ snapshot.stream ∧ s.rx.expected ≠ []

/-! ## The whole device -/

/-- Rule R39: every register's value after power-on, in the order of the records `TxState` and `RxState`, and COLOR_OUT;
and the TX column is exactly the state that `TX.STOP` leaves, from any state. -/
def Obligations.ResetLeavesTheTableOfValues : Prop :=
  State.reset.tx = ⟨false, .idle, [], 0, none, 0, 0, 0, 0, 0, 0, 0, 0, 0⟩ ∧
  State.reset.rx = ⟨false, 0, 0, true, 0, [], 0, 0, 0, 0, 128, .unknown, none, [], [], .none⟩ ∧
  colorOut State.reset.tx = .dark ∧
  ∀ s : State, ∃ s', exec .txStop s = .next s' ∧ s'.tx = State.reset.tx

/-- The state after power-on meets the invariant, whatever the device's open parameters are (log entry 10). -/
def Obligations.ResetMeetsTheInvariant : Prop :=
  StateInv State.reset ∧ ∀ c : Config, StateInv { State.reset with config := c }

/-- From every state that meets the invariant, reached or not, every step that answers a next state keeps it. -/
def Obligations.StepKeepsTheInvariant : Prop :=
  ∀ s s' : State, StateInv s → step s = .next s' → StateInv s'

/-- Rule R23: its six lines hold of every state the device can reach, whatever bytes arrive. -/
def Obligations.ReachableStatesMeetTheSixLines : Prop :=
  ∀ s : State, Reachable s →
    (s.tx.active = true ↔ s.tx.phase ≠ .idle) ∧
    (s.tx.phase = .idle → s.tx = TxState.reset) ∧
    (s.tx.phase = .run → 1 ≤ s.tx.code.length ∧ 0 < s.tx.bitDur ∧ s.tx.bitIndex < s.tx.code.length ∧
      s.tx.curBit = s.tx.code[s.tx.bitIndex]?) ∧
    s.rx.stream.length ≤ 100 ∧
    (s.rx.active = false → s.rx.stream = [] ∧ s.rx.cls = .unknown ∧ s.rx.matchResult = .none) ∧
    s.rx.matchResult = .none

/-- From every state that meets the invariant a step never faults, and the only refusal is of a time that runs backwards
within a run (rule R226; which times, log entry 6): of a tick in CAL or RUN before the run's latest callback or start, or
of a frame of an active decoder before its latest processed frame. -/
def Obligations.GoodStatesStopOnlyForTime : Prop :=
  ∀ s : State, StateInv s →
    (∃ s', step s = .next s') ∨
    (step s = .refused .timeBackwards ∧
      ((∃ ts rest, decode s.port = .command (.txTick ts) rest ∧ s.tx.phase ≠ .idle ∧
          (ts.toNat : Rat) / 1000 < s.txTime) ∨
        (∃ ts ready ctx fail px rest, decode s.port = .command (.rxFrame ts ready ctx fail px) rest ∧
          s.rx.active = true ∧ s.rx.first = false ∧ (ts.toNat : Rat) / 1000 < s.rxTime)))

/-- Rule R58 (and R3, R208): the two instances share nothing. A command of one changes no register of the other, and
what it does to its own instance, answers and emits depends on that instance alone (with the time held for it, log entry
6, and the device's fixed parameters, log entry 10). -/
def Obligations.InstancesShareNothing : Prop :=
  ∀ (i : Instr) (s s' : State), exec i s = .next s' →
    (isTx i = true → s'.rx = s.rx ∧ s'.rxTime = s.rxTime ∧
      ∀ r : State, r.tx = s.tx → r.txTime = s.txTime → r.config = s.config →
        ∃ r', exec i r = .next r' ∧ r'.tx = s'.tx ∧ r'.txTime = s'.txTime ∧ r'.rx = r.rx ∧ r'.rxTime = r.rxTime ∧
          r'.response = s'.response ∧ r'.events = s'.events) ∧
    (isTx i = false → s'.tx = s.tx ∧ s'.txTime = s.txTime ∧
      ∀ r : State, r.rx = s.rx → r.rxTime = s.rxTime → r.config = s.config →
        ∃ r', exec i r = .next r' ∧ r'.rx = s'.rx ∧ r'.rxTime = s'.rxTime ∧ r'.tx = r.tx ∧ r'.txTime = r.txTime ∧
          r'.response = s'.response ∧ r'.events = s'.events)

/-- Rules R190, R192, R193, R194: a command answered with a fault has changed no register and emitted nothing, but for
a start that was refused the camera; `RuntimeCaptureError` and `IllegalCommand` are never a command's answer. -/
def Obligations.FaultsLeaveTheRegistersAlone : Prop :=
  ∀ (i : Instr) (s s' : State) (f : Status) (d : ResponseData), exec i s = .next s' → s'.response = some ⟨f, d⟩ →
    f ≠ .ok →
    d = .nothing ∧ s'.tx = s.tx ∧
    ((f = .invalidCodeFormat ∧ s'.rx = s.rx ∧ s'.events = [] ∧ ((∃ now fps code, i = .txStart now fps code) ∨
       (s.config.rxValidateCode = true ∧ ∃ grant cid w h thr e, i = .rxStart true true grant cid w h thr e))) ∨
     (f = .missingCaptureSurface ∧ s'.rx = s.rx ∧ s'.events = [] ∧
       ∃ video draw grant cid w h thr e, i = .rxStart video draw grant cid w h thr e) ∨
     (f = .cameraAcquisitionFailure ∧ s'.rx.active = false ∧
       ∃ cid w h thr e, i = .rxStart true true false cid w h thr e))

/-! ## The assembler -/

/-- Rules R82 and R83. Every line the assembler accepts is commands that fit their packets. The pseudo-instructions:
`TX.TICKS n, t0, dt` is the n packets at `t0 + k×dt`, and no line when one of these times needs more than 64 bits;
`RX.GRAY` and `RX.SKIP` are their frames, and a grey frame's brightness is its value. An operand left out takes its
default. A number that no Q16.16 field holds is rejected. One line of each form is written out. Details of the text
that rule R82 leaves open are the model's (log entry 20). -/
def Obligations.AssembledCommandsFitTheirPackets : Prop :=
  (∀ (line : String) (is : List Instr), assemble line = some is → ∀ i ∈ is, i.wf = true) ∧
  (∀ (a b c : List Char) (n t0 dt : Nat), asmNat a = some n → asmNat b = some t0 → asmNat c = some dt →
    let line := String.ofList ("TX.TICKS ".toList ++ a ++ ", ".toList ++ b ++ ", ".toList ++ c)
    ((∀ k, k < n → t0 + k * dt < 2 ^ 64) →
      assemble line = some ((List.range n).map fun k => .txTick (BitVec.ofNat 64 (t0 + k * dt)))) ∧
    (∀ k, k < n → 2 ^ 64 ≤ t0 + k * dt → assemble line = none)) ∧
  (∀ (a c : List Char) (ts : BitVec 64) (v : Byte), asmMicros a = some ts → asmChannel c = some v →
    assemble (String.ofList ("RX.GRAY ".toList ++ a ++ ", ".toList ++ c))
      = some [.rxFrame ts true true false [⟨v, v, v⟩]] ∧
    frameBrightness [⟨v, v, v⟩] = (v.toNat : Rat)) ∧
  (∀ (a : List Char) (ts : BitVec 64), asmMicros a = some ts →
    assemble (String.ofList ("RX.SKIP ".toList ++ a)) = some [.rxFrame ts false true false []]) ∧
  (∀ ops i, asmTxStart ops = some i → ∃ now fps code, i = .txStart now fps code ∧
    (asmLookup "fps" ops = none → q16 fps = 60)) ∧
  (∀ ops i, asmRxStart ops = some i → ∃ video draw grant cid w h thr e, i = .rxStart video draw grant cid w h thr e ∧
    (asmLookup "src" ops = none → w = 0 ∧ h = 0) ∧ (asmLookup "code" ops = none → e = []) ∧
    (asmLookup "thr" ops = none → q16 thr = 128) ∧ (asmLookup "cam" ops = none → cid = none)) ∧
  (∀ ops i, asmRxFrame ops = some i → ∃ ts ready ctx fail px, i = .rxFrame ts ready ctx fail px ∧
    (asmLookup "ready" ops = none → ready = true) ∧ (asmLookup "ctx" ops = none → ctx = true) ∧
    (asmLookup "fail" ops = none → fail = false)) ∧
  (∀ (v : Rat) (f : BitVec 32), q16Field v = some f ↔ q16 f = v) ∧
  (∀ (cs : List Char) (v : Rat) (ops : List (List Char × List Char)), asmDecimal cs = some v →
    (∀ f : BitVec 32, q16 f ≠ v) →
    (asmLookup "fps" ops = some cs → asmTxStart ops = none) ∧ (asmLookup "thr" ops = some cs → asmRxStart ops = none)) ∧
  assemble "TX.START now=5 code=\"01\"" = some [.txStart 5 0x003C0000 [0x30, 0x31]] ∧
  assemble "TX.START now=5 code=\"1\" fps=-59.5" = some [.txStart 5 0xFFC48000 [0x31]] ∧
  assemble "TX.START now=5 code=\"1\" fps=0.1" = none ∧
  assemble "TX.TICK ts=16000" = some [.txTick 16000] ∧
  assemble "TX.STOP" = some [.txStop] ∧
  assemble "TX.COLOR" = some [.txColor] ∧
  assemble "TX.STATUS" = some [.txStatus] ∧
  assemble "RX.START video=1 draw=0 grant=1" = some [.rxStart true false true none 0 0 0x00800000 []] ∧
  assemble "RX.START video=1 draw=1 grant=0 src=1280x720 code=\"10\" thr=100 cam=\"a b\""
    = some [.rxStart true true false (some [0x61, 0x20, 0x62]) 1280 720 0x00640000 [0x31, 0x30]] ∧
  assemble "RX.FRAME ts=30000 px=[(1,2,3) (4,5,6)]" = some [.rxFrame 30000 true true false [⟨1, 2, 3⟩, ⟨4, 5, 6⟩]] ∧
  assemble "RX.FRAME ts=7 ready=0 ctx=0 fail=1 px=[]" = some [.rxFrame 7 false false true []] ∧
  assemble "RX.STOP" = some [.rxStop] ∧
  assemble "RX.RESET" = some [.rxReset] ∧
  assemble "RX.STATUS" = some [.rxStatus]
end

