-- ==== Sys2Proof/Laws/Config.lean ====
section
/-! SUPPORT. The values of the parameter table, one lemma each. -/

namespace Sys2Proof

@[simp] theorem literals_calFrames : literals.calFrames = 60 := by simp [literals]
@[simp] theorem literals_rateMin : literals.rateMin = 30 := by simp [literals]
@[simp] theorem literals_rateMax : literals.rateMax = 120 := by simp [literals]
@[simp] theorem literals_nominalFps : literals.nominalFps = 30 := by simp [literals]
@[simp] theorem literals_defaultTargetFps : literals.defaultTargetFps = 60 := by simp [literals]
@[simp] theorem literals_fpsWindowMs : literals.fpsWindowMs = 1000 := by simp [literals]
@[simp] theorem literals_rxAssumedFps : literals.rxAssumedFps = 60 := by simp [literals]
@[simp] theorem literals_closeFraction : literals.closeFraction = 4 / 5 := by simp [literals]
@[simp] theorem literals_pixelStride : literals.pixelStride = 10 := by simp [literals]
@[simp] theorem literals_lumaR : literals.lumaR = 2126 / 10000 := by simp [literals]
@[simp] theorem literals_lumaG : literals.lumaG = 7152 / 10000 := by simp [literals]
@[simp] theorem literals_lumaB : literals.lumaB = 722 / 10000 := by simp [literals]
@[simp] theorem literals_defaultThreshold : literals.defaultThreshold = 128 := by simp [literals]
@[simp] theorem literals_hyst : literals.hyst = 20 := by simp [literals]
@[simp] theorem literals_streamCap : literals.streamCap = 100 := by simp [literals]
@[simp] theorem literals_matchWindowFactor : literals.matchWindowFactor = 2 := by simp [literals]
@[simp] theorem literals_fallbackW : literals.fallbackW = 640 := by simp [literals]
@[simp] theorem literals_fallbackH : literals.fallbackH = 480 := by simp [literals]
@[simp] theorem literals_camW : literals.camW = 640 := by simp [literals]
@[simp] theorem literals_camH : literals.camH = 480 := by simp [literals]
@[simp] theorem literals_camFps : literals.camFps = 30 := by simp [literals]
@[simp] theorem literals_camFpsMin : literals.camFpsMin = 15 := by simp [literals]
@[simp] theorem literals_codeMax : literals.codeMax = 65535 := by simp [literals]
@[simp] theorem literals_wireUnitsPerMs : literals.wireUnitsPerMs = 1000 := by simp [literals]

@[simp] theorem config_default_calRound : Config.default.calRound = .identity := rfl
@[simp] theorem config_default_rxValidateCode : Config.default.rxValidateCode = false := rfl
@[simp] theorem config_default_winMax : Config.default.winMax = none := rfl
@[simp] theorem config_default_failedFrames : Config.default.failedFrames = [] := rfl

end Sys2Proof
end

