-- ==== Sys2Proof/Laws/State.lean ====
section
/-! SUPPORT. One lemma per field per update, so that no proof unfolds a record update. -/

namespace Sys2Proof.Machine

/-! ## Updates of the device's state -/

@[simp] theorem clearOutputs_tx (s : State) : (clearOutputs s).tx = s.tx := rfl
@[simp] theorem clearOutputs_rx (s : State) : (clearOutputs s).rx = s.rx := rfl
@[simp] theorem clearOutputs_port (s : State) : (clearOutputs s).port = s.port := rfl
@[simp] theorem clearOutputs_inputEnded (s : State) : (clearOutputs s).inputEnded = s.inputEnded := rfl
@[simp] theorem clearOutputs_response (s : State) : (clearOutputs s).response = none := rfl
@[simp] theorem clearOutputs_events (s : State) : (clearOutputs s).events = [] := rfl
@[simp] theorem clearOutputs_config (s : State) : (clearOutputs s).config = s.config := rfl
@[simp] theorem clearOutputs_txTime (s : State) : (clearOutputs s).txTime = s.txTime := rfl
@[simp] theorem clearOutputs_rxTime (s : State) : (clearOutputs s).rxTime = s.rxTime := rfl

@[simp] theorem emit_tx (e : Event) (s : State) : (emit e s).tx = s.tx := rfl
@[simp] theorem emit_rx (e : Event) (s : State) : (emit e s).rx = s.rx := rfl
@[simp] theorem emit_port (e : Event) (s : State) : (emit e s).port = s.port := rfl
@[simp] theorem emit_inputEnded (e : Event) (s : State) : (emit e s).inputEnded = s.inputEnded := rfl
@[simp] theorem emit_response (e : Event) (s : State) : (emit e s).response = s.response := rfl
@[simp] theorem emit_events (e : Event) (s : State) : (emit e s).events = s.events ++ [e] := rfl
@[simp] theorem emit_config (e : Event) (s : State) : (emit e s).config = s.config := rfl
@[simp] theorem emit_txTime (e : Event) (s : State) : (emit e s).txTime = s.txTime := rfl
@[simp] theorem emit_rxTime (e : Event) (s : State) : (emit e s).rxTime = s.rxTime := rfl

@[simp] theorem respond_tx (f : Status) (d : ResponseData) (s : State) : (respond f d s).tx = s.tx := rfl
@[simp] theorem respond_rx (f : Status) (d : ResponseData) (s : State) : (respond f d s).rx = s.rx := rfl
@[simp] theorem respond_port (f : Status) (d : ResponseData) (s : State) : (respond f d s).port = s.port := rfl
@[simp] theorem respond_inputEnded (f : Status) (d : ResponseData) (s : State) :
    (respond f d s).inputEnded = s.inputEnded := rfl
@[simp] theorem respond_response (f : Status) (d : ResponseData) (s : State) :
    (respond f d s).response = some ⟨f, d⟩ := rfl
@[simp] theorem respond_events (f : Status) (d : ResponseData) (s : State) : (respond f d s).events = s.events := rfl
@[simp] theorem respond_config (f : Status) (d : ResponseData) (s : State) : (respond f d s).config = s.config := rfl
@[simp] theorem respond_txTime (f : Status) (d : ResponseData) (s : State) : (respond f d s).txTime = s.txTime := rfl
@[simp] theorem respond_rxTime (f : Status) (d : ResponseData) (s : State) : (respond f d s).rxTime = s.rxTime := rfl

@[simp] theorem setTx_tx (tx : TxState) (s : State) : (setTx tx s).tx = tx := rfl
@[simp] theorem setTx_rx (tx : TxState) (s : State) : (setTx tx s).rx = s.rx := rfl
@[simp] theorem setTx_port (tx : TxState) (s : State) : (setTx tx s).port = s.port := rfl
@[simp] theorem setTx_inputEnded (tx : TxState) (s : State) : (setTx tx s).inputEnded = s.inputEnded := rfl
@[simp] theorem setTx_response (tx : TxState) (s : State) : (setTx tx s).response = s.response := rfl
@[simp] theorem setTx_events (tx : TxState) (s : State) : (setTx tx s).events = s.events := rfl
@[simp] theorem setTx_config (tx : TxState) (s : State) : (setTx tx s).config = s.config := rfl
@[simp] theorem setTx_txTime (tx : TxState) (s : State) : (setTx tx s).txTime = s.txTime := rfl
@[simp] theorem setTx_rxTime (tx : TxState) (s : State) : (setTx tx s).rxTime = s.rxTime := rfl

@[simp] theorem setRx_tx (rx : RxState) (s : State) : (setRx rx s).tx = s.tx := rfl
@[simp] theorem setRx_rx (rx : RxState) (s : State) : (setRx rx s).rx = rx := rfl
@[simp] theorem setRx_port (rx : RxState) (s : State) : (setRx rx s).port = s.port := rfl
@[simp] theorem setRx_inputEnded (rx : RxState) (s : State) : (setRx rx s).inputEnded = s.inputEnded := rfl
@[simp] theorem setRx_response (rx : RxState) (s : State) : (setRx rx s).response = s.response := rfl
@[simp] theorem setRx_events (rx : RxState) (s : State) : (setRx rx s).events = s.events := rfl
@[simp] theorem setRx_config (rx : RxState) (s : State) : (setRx rx s).config = s.config := rfl
@[simp] theorem setRx_txTime (rx : RxState) (s : State) : (setRx rx s).txTime = s.txTime := rfl
@[simp] theorem setRx_rxTime (rx : RxState) (s : State) : (setRx rx s).rxTime = s.rxTime := rfl

@[simp] theorem setTxTime_tx (t : Time) (s : State) : (setTxTime t s).tx = s.tx := rfl
@[simp] theorem setTxTime_rx (t : Time) (s : State) : (setTxTime t s).rx = s.rx := rfl
@[simp] theorem setTxTime_port (t : Time) (s : State) : (setTxTime t s).port = s.port := rfl
@[simp] theorem setTxTime_inputEnded (t : Time) (s : State) : (setTxTime t s).inputEnded = s.inputEnded := rfl
@[simp] theorem setTxTime_response (t : Time) (s : State) : (setTxTime t s).response = s.response := rfl
@[simp] theorem setTxTime_events (t : Time) (s : State) : (setTxTime t s).events = s.events := rfl
@[simp] theorem setTxTime_config (t : Time) (s : State) : (setTxTime t s).config = s.config := rfl
@[simp] theorem setTxTime_txTime (t : Time) (s : State) : (setTxTime t s).txTime = t := rfl
@[simp] theorem setTxTime_rxTime (t : Time) (s : State) : (setTxTime t s).rxTime = s.rxTime := rfl

@[simp] theorem setRxTime_tx (t : Time) (s : State) : (setRxTime t s).tx = s.tx := rfl
@[simp] theorem setRxTime_rx (t : Time) (s : State) : (setRxTime t s).rx = s.rx := rfl
@[simp] theorem setRxTime_port (t : Time) (s : State) : (setRxTime t s).port = s.port := rfl
@[simp] theorem setRxTime_inputEnded (t : Time) (s : State) : (setRxTime t s).inputEnded = s.inputEnded := rfl
@[simp] theorem setRxTime_response (t : Time) (s : State) : (setRxTime t s).response = s.response := rfl
@[simp] theorem setRxTime_events (t : Time) (s : State) : (setRxTime t s).events = s.events := rfl
@[simp] theorem setRxTime_config (t : Time) (s : State) : (setRxTime t s).config = s.config := rfl
@[simp] theorem setRxTime_txTime (t : Time) (s : State) : (setRxTime t s).txTime = s.txTime := rfl
@[simp] theorem setRxTime_rxTime (t : Time) (s : State) : (setRxTime t s).rxTime = t := rfl

@[simp] theorem setPort_tx (bytes : List Byte) (s : State) : (setPort bytes s).tx = s.tx := rfl
@[simp] theorem setPort_rx (bytes : List Byte) (s : State) : (setPort bytes s).rx = s.rx := rfl
@[simp] theorem setPort_port (bytes : List Byte) (s : State) : (setPort bytes s).port = bytes := rfl
@[simp] theorem setPort_inputEnded (bytes : List Byte) (s : State) :
    (setPort bytes s).inputEnded = s.inputEnded := rfl
@[simp] theorem setPort_response (bytes : List Byte) (s : State) : (setPort bytes s).response = s.response := rfl
@[simp] theorem setPort_events (bytes : List Byte) (s : State) : (setPort bytes s).events = s.events := rfl
@[simp] theorem setPort_config (bytes : List Byte) (s : State) : (setPort bytes s).config = s.config := rfl
@[simp] theorem setPort_txTime (bytes : List Byte) (s : State) : (setPort bytes s).txTime = s.txTime := rfl
@[simp] theorem setPort_rxTime (bytes : List Byte) (s : State) : (setPort bytes s).rxTime = s.rxTime := rfl

/-! ## Updates of the TX registers -/

/-- `TX.STOP` leaves exactly the reset values (rules R39, R104). -/
@[simp] theorem txStopWrites_eq_reset (tx : TxState) : txStopWrites tx = TxState.reset := rfl

@[simp] theorem txAccept_active (now : Time) (fps : Rat) (code : List Bool) (tx : TxState) :
    (txAccept now fps code tx).active = true := rfl
@[simp] theorem txAccept_phase (now : Time) (fps : Rat) (code : List Bool) (tx : TxState) :
    (txAccept now fps code tx).phase = .cal := rfl
@[simp] theorem txAccept_code (now : Time) (fps : Rat) (code : List Bool) (tx : TxState) :
    (txAccept now fps code tx).code = code := rfl
@[simp] theorem txAccept_bitIndex (now : Time) (fps : Rat) (code : List Bool) (tx : TxState) :
    (txAccept now fps code tx).bitIndex = tx.bitIndex := rfl
@[simp] theorem txAccept_curBit (now : Time) (fps : Rat) (code : List Bool) (tx : TxState) :
    (txAccept now fps code tx).curBit = tx.curBit := rfl
@[simp] theorem txAccept_targetFps (now : Time) (fps : Rat) (code : List Bool) (tx : TxState) :
    (txAccept now fps code tx).targetFps = fps := rfl
@[simp] theorem txAccept_calT0 (now : Time) (fps : Rat) (code : List Bool) (tx : TxState) :
    (txAccept now fps code tx).calT0 = now := rfl
@[simp] theorem txAccept_calCount (now : Time) (fps : Rat) (code : List Bool) (tx : TxState) :
    (txAccept now fps code tx).calCount = 0 := rfl
@[simp] theorem txAccept_effRate (now : Time) (fps : Rat) (code : List Bool) (tx : TxState) :
    (txAccept now fps code tx).effRate = tx.effRate := rfl
@[simp] theorem txAccept_bitDur (now : Time) (fps : Rat) (code : List Bool) (tx : TxState) :
    (txAccept now fps code tx).bitDur = tx.bitDur := rfl
@[simp] theorem txAccept_epoch (now : Time) (fps : Rat) (code : List Bool) (tx : TxState) :
    (txAccept now fps code tx).epoch = tx.epoch := rfl
@[simp] theorem txAccept_measFps (now : Time) (fps : Rat) (code : List Bool) (tx : TxState) :
    (txAccept now fps code tx).measFps = tx.measFps := rfl
@[simp] theorem txAccept_fpsCount (now : Time) (fps : Rat) (code : List Bool) (tx : TxState) :
    (txAccept now fps code tx).fpsCount = tx.fpsCount := rfl
@[simp] theorem txAccept_fpsT0 (now : Time) (fps : Rat) (code : List Bool) (tx : TxState) :
    (txAccept now fps code tx).fpsT0 = tx.fpsT0 := rfl

@[simp] theorem beginLoop_active (m : Rat) (t : Time) (bit : Bool) (tx : TxState) :
    (beginLoop m t bit tx).active = tx.active := rfl
@[simp] theorem beginLoop_phase (m : Rat) (t : Time) (bit : Bool) (tx : TxState) :
    (beginLoop m t bit tx).phase = .run := rfl
@[simp] theorem beginLoop_code (m : Rat) (t : Time) (bit : Bool) (tx : TxState) :
    (beginLoop m t bit tx).code = tx.code := rfl
@[simp] theorem beginLoop_bitIndex (m : Rat) (t : Time) (bit : Bool) (tx : TxState) :
    (beginLoop m t bit tx).bitIndex = 0 := rfl
@[simp] theorem beginLoop_curBit (m : Rat) (t : Time) (bit : Bool) (tx : TxState) :
    (beginLoop m t bit tx).curBit = some bit := rfl
@[simp] theorem beginLoop_targetFps (m : Rat) (t : Time) (bit : Bool) (tx : TxState) :
    (beginLoop m t bit tx).targetFps = tx.targetFps := rfl
@[simp] theorem beginLoop_calT0 (m : Rat) (t : Time) (bit : Bool) (tx : TxState) :
    (beginLoop m t bit tx).calT0 = tx.calT0 := rfl
@[simp] theorem beginLoop_calCount (m : Rat) (t : Time) (bit : Bool) (tx : TxState) :
    (beginLoop m t bit tx).calCount = tx.calCount := rfl
@[simp] theorem beginLoop_effRate (m : Rat) (t : Time) (bit : Bool) (tx : TxState) :
    (beginLoop m t bit tx).effRate = effectiveRate m tx.targetFps := rfl
@[simp] theorem beginLoop_bitDur (m : Rat) (t : Time) (bit : Bool) (tx : TxState) :
    (beginLoop m t bit tx).bitDur = bitDuration (effectiveRate m tx.targetFps) := rfl
@[simp] theorem beginLoop_epoch (m : Rat) (t : Time) (bit : Bool) (tx : TxState) :
    (beginLoop m t bit tx).epoch = t := rfl
@[simp] theorem beginLoop_measFps (m : Rat) (t : Time) (bit : Bool) (tx : TxState) :
    (beginLoop m t bit tx).measFps = m := rfl
@[simp] theorem beginLoop_fpsCount (m : Rat) (t : Time) (bit : Bool) (tx : TxState) :
    (beginLoop m t bit tx).fpsCount = 0 := rfl
@[simp] theorem beginLoop_fpsT0 (m : Rat) (t : Time) (bit : Bool) (tx : TxState) :
    (beginLoop m t bit tx).fpsT0 = t := rfl

@[simp] theorem countTick_active (t : Time) (tx : TxState) :
    (countTick t tx).active = tx.active := by unfold countTick; split <;> rfl
@[simp] theorem countTick_phase (t : Time) (tx : TxState) :
    (countTick t tx).phase = tx.phase := by unfold countTick; split <;> rfl
@[simp] theorem countTick_code (t : Time) (tx : TxState) :
    (countTick t tx).code = tx.code := by unfold countTick; split <;> rfl
@[simp] theorem countTick_bitIndex (t : Time) (tx : TxState) :
    (countTick t tx).bitIndex = tx.bitIndex := by unfold countTick; split <;> rfl
@[simp] theorem countTick_curBit (t : Time) (tx : TxState) :
    (countTick t tx).curBit = tx.curBit := by unfold countTick; split <;> rfl
@[simp] theorem countTick_targetFps (t : Time) (tx : TxState) :
    (countTick t tx).targetFps = tx.targetFps := by unfold countTick; split <;> rfl
@[simp] theorem countTick_calT0 (t : Time) (tx : TxState) :
    (countTick t tx).calT0 = tx.calT0 := by unfold countTick; split <;> rfl
@[simp] theorem countTick_calCount (t : Time) (tx : TxState) :
    (countTick t tx).calCount = tx.calCount := by unfold countTick; split <;> rfl
@[simp] theorem countTick_effRate (t : Time) (tx : TxState) :
    (countTick t tx).effRate = tx.effRate := by unfold countTick; split <;> rfl
@[simp] theorem countTick_bitDur (t : Time) (tx : TxState) :
    (countTick t tx).bitDur = tx.bitDur := by unfold countTick; split <;> rfl
@[simp] theorem countTick_epoch (t : Time) (tx : TxState) :
    (countTick t tx).epoch = tx.epoch := by unfold countTick; split <;> rfl
@[simp] theorem countTick_measFps (t : Time) (tx : TxState) :
    (countTick t tx).measFps = if literals.fpsWindowMs ≤ t - tx.fpsT0 then ((tx.fpsCount + 1 : Nat) : Rat) else tx.measFps :=
  by unfold countTick; split <;> rfl
@[simp] theorem countTick_fpsCount (t : Time) (tx : TxState) :
    (countTick t tx).fpsCount = if literals.fpsWindowMs ≤ t - tx.fpsT0 then 0 else tx.fpsCount + 1 :=
  by unfold countTick; split <;> rfl
@[simp] theorem countTick_fpsT0 (t : Time) (tx : TxState) :
    (countTick t tx).fpsT0 = if literals.fpsWindowMs ≤ t - tx.fpsT0 then t else tx.fpsT0 :=
  by unfold countTick; split <;> rfl

/-! ## Updates of the RX registers -/

@[simp] theorem clearDecoding_active (rx : RxState) : (clearDecoding rx).active = rx.active := rfl
@[simp] theorem clearDecoding_drawW (rx : RxState) : (clearDecoding rx).drawW = rx.drawW := rfl
@[simp] theorem clearDecoding_drawH (rx : RxState) : (clearDecoding rx).drawH = rx.drawH := rfl
@[simp] theorem clearDecoding_first (rx : RxState) : (clearDecoding rx).first = rx.first := rfl
@[simp] theorem clearDecoding_bright (rx : RxState) : (clearDecoding rx).bright = rx.bright := rfl
@[simp] theorem clearDecoding_win (rx : RxState) : (clearDecoding rx).win = rx.win := rfl
@[simp] theorem clearDecoding_winAnchor (rx : RxState) : (clearDecoding rx).winAnchor = rx.winAnchor := rfl
@[simp] theorem clearDecoding_fpsCount (rx : RxState) : (clearDecoding rx).fpsCount = rx.fpsCount := rfl
@[simp] theorem clearDecoding_fpsT0 (rx : RxState) : (clearDecoding rx).fpsT0 = rx.fpsT0 := rfl
@[simp] theorem clearDecoding_measFps (rx : RxState) : (clearDecoding rx).measFps = rx.measFps := rfl
@[simp] theorem clearDecoding_threshold (rx : RxState) : (clearDecoding rx).threshold = rx.threshold := rfl
@[simp] theorem clearDecoding_cls (rx : RxState) : (clearDecoding rx).cls = .unknown := rfl
@[simp] theorem clearDecoding_lastBit (rx : RxState) : (clearDecoding rx).lastBit = rx.lastBit := rfl
@[simp] theorem clearDecoding_stream (rx : RxState) : (clearDecoding rx).stream = [] := rfl
@[simp] theorem clearDecoding_expected (rx : RxState) : (clearDecoding rx).expected = rx.expected := rfl
@[simp] theorem clearDecoding_matchResult (rx : RxState) : (clearDecoding rx).matchResult = .none := rfl

@[simp] theorem rxStopWrites_active (rx : RxState) : (rxStopWrites rx).active = false := rfl
@[simp] theorem rxStopWrites_drawW (rx : RxState) : (rxStopWrites rx).drawW = rx.drawW := rfl
@[simp] theorem rxStopWrites_drawH (rx : RxState) : (rxStopWrites rx).drawH = rx.drawH := rfl
@[simp] theorem rxStopWrites_first (rx : RxState) : (rxStopWrites rx).first = rx.first := rfl
@[simp] theorem rxStopWrites_bright (rx : RxState) : (rxStopWrites rx).bright = rx.bright := rfl
@[simp] theorem rxStopWrites_win (rx : RxState) : (rxStopWrites rx).win = rx.win := rfl
@[simp] theorem rxStopWrites_winAnchor (rx : RxState) : (rxStopWrites rx).winAnchor = rx.winAnchor := rfl
@[simp] theorem rxStopWrites_fpsCount (rx : RxState) : (rxStopWrites rx).fpsCount = rx.fpsCount := rfl
@[simp] theorem rxStopWrites_fpsT0 (rx : RxState) : (rxStopWrites rx).fpsT0 = rx.fpsT0 := rfl
@[simp] theorem rxStopWrites_measFps (rx : RxState) : (rxStopWrites rx).measFps = rx.measFps := rfl
@[simp] theorem rxStopWrites_threshold (rx : RxState) : (rxStopWrites rx).threshold = rx.threshold := rfl
@[simp] theorem rxStopWrites_cls (rx : RxState) : (rxStopWrites rx).cls = .unknown := rfl
@[simp] theorem rxStopWrites_lastBit (rx : RxState) : (rxStopWrites rx).lastBit = rx.lastBit := rfl
@[simp] theorem rxStopWrites_stream (rx : RxState) : (rxStopWrites rx).stream = [] := rfl
@[simp] theorem rxStopWrites_expected (rx : RxState) : (rxStopWrites rx).expected = rx.expected := rfl
@[simp] theorem rxStopWrites_matchResult (rx : RxState) : (rxStopWrites rx).matchResult = .none := rfl

@[simp] theorem sizeTarget_active (w h : BitVec 16) (rx : RxState) : (sizeTarget w h rx).active = rx.active := rfl
@[simp] theorem sizeTarget_drawW (w h : BitVec 16) (rx : RxState) :
    (sizeTarget w h rx).drawW = if w = 0 then literals.fallbackW else w := rfl
@[simp] theorem sizeTarget_drawH (w h : BitVec 16) (rx : RxState) :
    (sizeTarget w h rx).drawH = if h = 0 then literals.fallbackH else h := rfl
@[simp] theorem sizeTarget_first (w h : BitVec 16) (rx : RxState) : (sizeTarget w h rx).first = rx.first := rfl
@[simp] theorem sizeTarget_bright (w h : BitVec 16) (rx : RxState) : (sizeTarget w h rx).bright = rx.bright := rfl
@[simp] theorem sizeTarget_win (w h : BitVec 16) (rx : RxState) : (sizeTarget w h rx).win = rx.win := rfl
@[simp] theorem sizeTarget_winAnchor (w h : BitVec 16) (rx : RxState) :
    (sizeTarget w h rx).winAnchor = rx.winAnchor := rfl
@[simp] theorem sizeTarget_fpsCount (w h : BitVec 16) (rx : RxState) :
    (sizeTarget w h rx).fpsCount = rx.fpsCount := rfl
@[simp] theorem sizeTarget_fpsT0 (w h : BitVec 16) (rx : RxState) : (sizeTarget w h rx).fpsT0 = rx.fpsT0 := rfl
@[simp] theorem sizeTarget_measFps (w h : BitVec 16) (rx : RxState) : (sizeTarget w h rx).measFps = rx.measFps := rfl
@[simp] theorem sizeTarget_threshold (w h : BitVec 16) (rx : RxState) :
    (sizeTarget w h rx).threshold = rx.threshold := rfl
@[simp] theorem sizeTarget_cls (w h : BitVec 16) (rx : RxState) : (sizeTarget w h rx).cls = rx.cls := rfl
@[simp] theorem sizeTarget_lastBit (w h : BitVec 16) (rx : RxState) : (sizeTarget w h rx).lastBit = rx.lastBit := rfl
@[simp] theorem sizeTarget_stream (w h : BitVec 16) (rx : RxState) : (sizeTarget w h rx).stream = rx.stream := rfl
@[simp] theorem sizeTarget_expected (w h : BitVec 16) (rx : RxState) :
    (sizeTarget w h rx).expected = rx.expected := rfl
@[simp] theorem sizeTarget_matchResult (w h : BitVec 16) (rx : RxState) :
    (sizeTarget w h rx).matchResult = rx.matchResult := rfl

@[simp] theorem beginRun_active (thr : Rat) (expected : List Symbol) (rx : RxState) :
    (beginRun thr expected rx).active = true := rfl
@[simp] theorem beginRun_drawW (thr : Rat) (expected : List Symbol) (rx : RxState) :
    (beginRun thr expected rx).drawW = rx.drawW := rfl
@[simp] theorem beginRun_drawH (thr : Rat) (expected : List Symbol) (rx : RxState) :
    (beginRun thr expected rx).drawH = rx.drawH := rfl
@[simp] theorem beginRun_first (thr : Rat) (expected : List Symbol) (rx : RxState) :
    (beginRun thr expected rx).first = true := rfl
@[simp] theorem beginRun_bright (thr : Rat) (expected : List Symbol) (rx : RxState) :
    (beginRun thr expected rx).bright = rx.bright := rfl
@[simp] theorem beginRun_win (thr : Rat) (expected : List Symbol) (rx : RxState) :
    (beginRun thr expected rx).win = [] := rfl
@[simp] theorem beginRun_winAnchor (thr : Rat) (expected : List Symbol) (rx : RxState) :
    (beginRun thr expected rx).winAnchor = rx.winAnchor := rfl
@[simp] theorem beginRun_fpsCount (thr : Rat) (expected : List Symbol) (rx : RxState) :
    (beginRun thr expected rx).fpsCount = 0 := rfl
@[simp] theorem beginRun_fpsT0 (thr : Rat) (expected : List Symbol) (rx : RxState) :
    (beginRun thr expected rx).fpsT0 = rx.fpsT0 := rfl
@[simp] theorem beginRun_measFps (thr : Rat) (expected : List Symbol) (rx : RxState) :
    (beginRun thr expected rx).measFps = 0 := rfl
@[simp] theorem beginRun_threshold (thr : Rat) (expected : List Symbol) (rx : RxState) :
    (beginRun thr expected rx).threshold = thr := rfl
@[simp] theorem beginRun_cls (thr : Rat) (expected : List Symbol) (rx : RxState) :
    (beginRun thr expected rx).cls = .unknown := rfl
@[simp] theorem beginRun_lastBit (thr : Rat) (expected : List Symbol) (rx : RxState) :
    (beginRun thr expected rx).lastBit = rx.lastBit := rfl
@[simp] theorem beginRun_stream (thr : Rat) (expected : List Symbol) (rx : RxState) :
    (beginRun thr expected rx).stream = [] := rfl
@[simp] theorem beginRun_expected (thr : Rat) (expected : List Symbol) (rx : RxState) :
    (beginRun thr expected rx).expected = expected := rfl
@[simp] theorem beginRun_matchResult (thr : Rat) (expected : List Symbol) (rx : RxState) :
    (beginRun thr expected rx).matchResult = .none := rfl

@[simp] theorem classifyWrites_active (bit : Bool) (rx : RxState) : (classifyWrites bit rx).active = rx.active := rfl
@[simp] theorem classifyWrites_drawW (bit : Bool) (rx : RxState) : (classifyWrites bit rx).drawW = rx.drawW := rfl
@[simp] theorem classifyWrites_drawH (bit : Bool) (rx : RxState) : (classifyWrites bit rx).drawH = rx.drawH := rfl
@[simp] theorem classifyWrites_first (bit : Bool) (rx : RxState) : (classifyWrites bit rx).first = rx.first := rfl
@[simp] theorem classifyWrites_bright (bit : Bool) (rx : RxState) : (classifyWrites bit rx).bright = rx.bright := rfl
@[simp] theorem classifyWrites_win (bit : Bool) (rx : RxState) : (classifyWrites bit rx).win = rx.win := rfl
@[simp] theorem classifyWrites_winAnchor (bit : Bool) (rx : RxState) :
    (classifyWrites bit rx).winAnchor = rx.winAnchor := rfl
@[simp] theorem classifyWrites_fpsCount (bit : Bool) (rx : RxState) :
    (classifyWrites bit rx).fpsCount = rx.fpsCount := rfl
@[simp] theorem classifyWrites_fpsT0 (bit : Bool) (rx : RxState) : (classifyWrites bit rx).fpsT0 = rx.fpsT0 := rfl
@[simp] theorem classifyWrites_measFps (bit : Bool) (rx : RxState) :
    (classifyWrites bit rx).measFps = rx.measFps := rfl
@[simp] theorem classifyWrites_threshold (bit : Bool) (rx : RxState) :
    (classifyWrites bit rx).threshold = rx.threshold := rfl
@[simp] theorem classifyWrites_cls (bit : Bool) (rx : RxState) :
    (classifyWrites bit rx).cls = classifierAfter bit := rfl
@[simp] theorem classifyWrites_lastBit (bit : Bool) (rx : RxState) : (classifyWrites bit rx).lastBit = some bit := rfl
@[simp] theorem classifyWrites_stream (bit : Bool) (rx : RxState) : (classifyWrites bit rx).stream = rx.stream := rfl
@[simp] theorem classifyWrites_expected (bit : Bool) (rx : RxState) :
    (classifyWrites bit rx).expected = rx.expected := rfl
@[simp] theorem classifyWrites_matchResult (bit : Bool) (rx : RxState) :
    (classifyWrites bit rx).matchResult = rx.matchResult := rfl

@[simp] theorem recordBrightness_active (b : Rat) (rx : RxState) : (recordBrightness b rx).active = rx.active := rfl
@[simp] theorem recordBrightness_drawW (b : Rat) (rx : RxState) : (recordBrightness b rx).drawW = rx.drawW := rfl
@[simp] theorem recordBrightness_drawH (b : Rat) (rx : RxState) : (recordBrightness b rx).drawH = rx.drawH := rfl
@[simp] theorem recordBrightness_first (b : Rat) (rx : RxState) : (recordBrightness b rx).first = rx.first := rfl
@[simp] theorem recordBrightness_bright (b : Rat) (rx : RxState) : (recordBrightness b rx).bright = b := rfl
@[simp] theorem recordBrightness_win (b : Rat) (rx : RxState) : (recordBrightness b rx).win = rx.win := rfl
@[simp] theorem recordBrightness_winAnchor (b : Rat) (rx : RxState) :
    (recordBrightness b rx).winAnchor = rx.winAnchor := rfl
@[simp] theorem recordBrightness_fpsCount (b : Rat) (rx : RxState) :
    (recordBrightness b rx).fpsCount = rx.fpsCount := rfl
@[simp] theorem recordBrightness_fpsT0 (b : Rat) (rx : RxState) : (recordBrightness b rx).fpsT0 = rx.fpsT0 := rfl
@[simp] theorem recordBrightness_measFps (b : Rat) (rx : RxState) :
    (recordBrightness b rx).measFps = rx.measFps := rfl
@[simp] theorem recordBrightness_threshold (b : Rat) (rx : RxState) :
    (recordBrightness b rx).threshold = rx.threshold := rfl
@[simp] theorem recordBrightness_cls (b : Rat) (rx : RxState) : (recordBrightness b rx).cls = rx.cls := rfl
@[simp] theorem recordBrightness_lastBit (b : Rat) (rx : RxState) :
    (recordBrightness b rx).lastBit = rx.lastBit := rfl
@[simp] theorem recordBrightness_stream (b : Rat) (rx : RxState) : (recordBrightness b rx).stream = rx.stream := rfl
@[simp] theorem recordBrightness_expected (b : Rat) (rx : RxState) :
    (recordBrightness b rx).expected = rx.expected := rfl
@[simp] theorem recordBrightness_matchResult (b : Rat) (rx : RxState) :
    (recordBrightness b rx).matchResult = rx.matchResult := rfl

@[simp] theorem addSample_active (c : Config) (b : Rat) (rx : RxState) : (addSample c b rx).active = rx.active := rfl
@[simp] theorem addSample_drawW (c : Config) (b : Rat) (rx : RxState) : (addSample c b rx).drawW = rx.drawW := rfl
@[simp] theorem addSample_drawH (c : Config) (b : Rat) (rx : RxState) : (addSample c b rx).drawH = rx.drawH := rfl
@[simp] theorem addSample_first (c : Config) (b : Rat) (rx : RxState) : (addSample c b rx).first = rx.first := rfl
@[simp] theorem addSample_bright (c : Config) (b : Rat) (rx : RxState) : (addSample c b rx).bright = rx.bright := rfl
@[simp] theorem addSample_win (c : Config) (b : Rat) (rx : RxState) :
    (addSample c b rx).win = windowKeeps c rx.win b ++ [b] := rfl
@[simp] theorem addSample_winAnchor (c : Config) (b : Rat) (rx : RxState) :
    (addSample c b rx).winAnchor = rx.winAnchor := rfl
@[simp] theorem addSample_fpsCount (c : Config) (b : Rat) (rx : RxState) :
    (addSample c b rx).fpsCount = rx.fpsCount := rfl
@[simp] theorem addSample_fpsT0 (c : Config) (b : Rat) (rx : RxState) : (addSample c b rx).fpsT0 = rx.fpsT0 := rfl
@[simp] theorem addSample_measFps (c : Config) (b : Rat) (rx : RxState) :
    (addSample c b rx).measFps = rx.measFps := rfl
@[simp] theorem addSample_threshold (c : Config) (b : Rat) (rx : RxState) :
    (addSample c b rx).threshold = rx.threshold := rfl
@[simp] theorem addSample_cls (c : Config) (b : Rat) (rx : RxState) : (addSample c b rx).cls = rx.cls := rfl
@[simp] theorem addSample_lastBit (c : Config) (b : Rat) (rx : RxState) :
    (addSample c b rx).lastBit = rx.lastBit := rfl
@[simp] theorem addSample_stream (c : Config) (b : Rat) (rx : RxState) : (addSample c b rx).stream = rx.stream := rfl
@[simp] theorem addSample_expected (c : Config) (b : Rat) (rx : RxState) :
    (addSample c b rx).expected = rx.expected := rfl
@[simp] theorem addSample_matchResult (c : Config) (b : Rat) (rx : RxState) :
    (addSample c b rx).matchResult = rx.matchResult := rfl

@[simp] theorem closePeriod_active (t : Time) (rx : RxState) : (closePeriod t rx).active = rx.active := rfl
@[simp] theorem closePeriod_drawW (t : Time) (rx : RxState) : (closePeriod t rx).drawW = rx.drawW := rfl
@[simp] theorem closePeriod_drawH (t : Time) (rx : RxState) : (closePeriod t rx).drawH = rx.drawH := rfl
@[simp] theorem closePeriod_first (t : Time) (rx : RxState) : (closePeriod t rx).first = rx.first := rfl
@[simp] theorem closePeriod_bright (t : Time) (rx : RxState) : (closePeriod t rx).bright = rx.bright := rfl
@[simp] theorem closePeriod_win (t : Time) (rx : RxState) : (closePeriod t rx).win = [] := rfl
@[simp] theorem closePeriod_winAnchor (t : Time) (rx : RxState) : (closePeriod t rx).winAnchor = t := rfl
@[simp] theorem closePeriod_fpsCount (t : Time) (rx : RxState) : (closePeriod t rx).fpsCount = rx.fpsCount := rfl
@[simp] theorem closePeriod_fpsT0 (t : Time) (rx : RxState) : (closePeriod t rx).fpsT0 = rx.fpsT0 := rfl
@[simp] theorem closePeriod_measFps (t : Time) (rx : RxState) : (closePeriod t rx).measFps = rx.measFps := rfl
@[simp] theorem closePeriod_threshold (t : Time) (rx : RxState) : (closePeriod t rx).threshold = rx.threshold := rfl
@[simp] theorem closePeriod_cls (t : Time) (rx : RxState) :
    (closePeriod t rx).cls = classifierAfter (periodBit rx) := rfl
@[simp] theorem closePeriod_lastBit (t : Time) (rx : RxState) :
    (closePeriod t rx).lastBit = some (periodBit rx) := rfl
@[simp] theorem closePeriod_stream (t : Time) (rx : RxState) :
    (closePeriod t rx).stream = appendBit (periodBit rx) rx.stream := rfl
@[simp] theorem closePeriod_expected (t : Time) (rx : RxState) : (closePeriod t rx).expected = rx.expected := rfl
@[simp] theorem closePeriod_matchResult (t : Time) (rx : RxState) :
    (closePeriod t rx).matchResult = rx.matchResult := rfl

@[simp] theorem anchorWindow_active (t : Time) (rx : RxState) :
    (anchorWindow t rx).active = rx.active := by unfold anchorWindow; split <;> rfl
@[simp] theorem anchorWindow_drawW (t : Time) (rx : RxState) :
    (anchorWindow t rx).drawW = rx.drawW := by unfold anchorWindow; split <;> rfl
@[simp] theorem anchorWindow_drawH (t : Time) (rx : RxState) :
    (anchorWindow t rx).drawH = rx.drawH := by unfold anchorWindow; split <;> rfl
@[simp] theorem anchorWindow_first (t : Time) (rx : RxState) :
    (anchorWindow t rx).first = false := by unfold anchorWindow; split <;> simp_all
@[simp] theorem anchorWindow_bright (t : Time) (rx : RxState) :
    (anchorWindow t rx).bright = rx.bright := by unfold anchorWindow; split <;> rfl
@[simp] theorem anchorWindow_win (t : Time) (rx : RxState) :
    (anchorWindow t rx).win = rx.win := by unfold anchorWindow; split <;> rfl
@[simp] theorem anchorWindow_winAnchor (t : Time) (rx : RxState) :
    (anchorWindow t rx).winAnchor = if rx.first then t else rx.winAnchor := by unfold anchorWindow; split <;> rfl
@[simp] theorem anchorWindow_fpsCount (t : Time) (rx : RxState) :
    (anchorWindow t rx).fpsCount = rx.fpsCount := by unfold anchorWindow; split <;> rfl
@[simp] theorem anchorWindow_fpsT0 (t : Time) (rx : RxState) :
    (anchorWindow t rx).fpsT0 = if rx.first then t else rx.fpsT0 := by unfold anchorWindow; split <;> rfl
@[simp] theorem anchorWindow_measFps (t : Time) (rx : RxState) :
    (anchorWindow t rx).measFps = rx.measFps := by unfold anchorWindow; split <;> rfl
@[simp] theorem anchorWindow_threshold (t : Time) (rx : RxState) :
    (anchorWindow t rx).threshold = rx.threshold := by unfold anchorWindow; split <;> rfl
@[simp] theorem anchorWindow_cls (t : Time) (rx : RxState) :
    (anchorWindow t rx).cls = rx.cls := by unfold anchorWindow; split <;> rfl
@[simp] theorem anchorWindow_lastBit (t : Time) (rx : RxState) :
    (anchorWindow t rx).lastBit = rx.lastBit := by unfold anchorWindow; split <;> rfl
@[simp] theorem anchorWindow_stream (t : Time) (rx : RxState) :
    (anchorWindow t rx).stream = rx.stream := by unfold anchorWindow; split <;> rfl
@[simp] theorem anchorWindow_expected (t : Time) (rx : RxState) :
    (anchorWindow t rx).expected = rx.expected := by unfold anchorWindow; split <;> rfl
@[simp] theorem anchorWindow_matchResult (t : Time) (rx : RxState) :
    (anchorWindow t rx).matchResult = rx.matchResult := by unfold anchorWindow; split <;> rfl

@[simp] theorem countFrame_active (t : Time) (rx : RxState) :
    (countFrame t rx).active = rx.active := by unfold countFrame; split <;> rfl
@[simp] theorem countFrame_drawW (t : Time) (rx : RxState) :
    (countFrame t rx).drawW = rx.drawW := by unfold countFrame; split <;> rfl
@[simp] theorem countFrame_drawH (t : Time) (rx : RxState) :
    (countFrame t rx).drawH = rx.drawH := by unfold countFrame; split <;> rfl
@[simp] theorem countFrame_first (t : Time) (rx : RxState) :
    (countFrame t rx).first = rx.first := by unfold countFrame; split <;> rfl
@[simp] theorem countFrame_bright (t : Time) (rx : RxState) :
    (countFrame t rx).bright = rx.bright := by unfold countFrame; split <;> rfl
@[simp] theorem countFrame_win (t : Time) (rx : RxState) :
    (countFrame t rx).win = rx.win := by unfold countFrame; split <;> rfl
@[simp] theorem countFrame_winAnchor (t : Time) (rx : RxState) :
    (countFrame t rx).winAnchor = rx.winAnchor := by unfold countFrame; split <;> rfl
@[simp] theorem countFrame_fpsCount (t : Time) (rx : RxState) :
    (countFrame t rx).fpsCount = if literals.fpsWindowMs ≤ t - rx.fpsT0 then 0 else rx.fpsCount + 1 :=
  by unfold countFrame; split <;> rfl
@[simp] theorem countFrame_fpsT0 (t : Time) (rx : RxState) :
    (countFrame t rx).fpsT0 = if literals.fpsWindowMs ≤ t - rx.fpsT0 then t else rx.fpsT0 :=
  by unfold countFrame; split <;> rfl
@[simp] theorem countFrame_measFps (t : Time) (rx : RxState) :
    (countFrame t rx).measFps = if literals.fpsWindowMs ≤ t - rx.fpsT0 then ((rx.fpsCount + 1 : Nat) : Rat) else rx.measFps :=
  by unfold countFrame; split <;> rfl
@[simp] theorem countFrame_threshold (t : Time) (rx : RxState) :
    (countFrame t rx).threshold = rx.threshold := by unfold countFrame; split <;> rfl
@[simp] theorem countFrame_cls (t : Time) (rx : RxState) :
    (countFrame t rx).cls = rx.cls := by unfold countFrame; split <;> rfl
@[simp] theorem countFrame_lastBit (t : Time) (rx : RxState) :
    (countFrame t rx).lastBit = rx.lastBit := by unfold countFrame; split <;> rfl
@[simp] theorem countFrame_stream (t : Time) (rx : RxState) :
    (countFrame t rx).stream = rx.stream := by unfold countFrame; split <;> rfl
@[simp] theorem countFrame_expected (t : Time) (rx : RxState) :
    (countFrame t rx).expected = rx.expected := by unfold countFrame; split <;> rfl
@[simp] theorem countFrame_matchResult (t : Time) (rx : RxState) :
    (countFrame t rx).matchResult = rx.matchResult := by unfold countFrame; split <;> rfl

@[simp] theorem takeSample_active (c : Config) (b : Rat) (t : Time) (rx : RxState) :
    (takeSample c b t rx).active = rx.active :=
  by simp only [takeSample, addSample_active, countFrame_active, anchorWindow_active]
@[simp] theorem takeSample_drawW (c : Config) (b : Rat) (t : Time) (rx : RxState) :
    (takeSample c b t rx).drawW = rx.drawW :=
  by simp only [takeSample, addSample_drawW, countFrame_drawW, anchorWindow_drawW]
@[simp] theorem takeSample_drawH (c : Config) (b : Rat) (t : Time) (rx : RxState) :
    (takeSample c b t rx).drawH = rx.drawH :=
  by simp only [takeSample, addSample_drawH, countFrame_drawH, anchorWindow_drawH]
@[simp] theorem takeSample_first (c : Config) (b : Rat) (t : Time) (rx : RxState) :
    (takeSample c b t rx).first = false :=
  by simp only [takeSample, addSample_first, countFrame_first, anchorWindow_first]
@[simp] theorem takeSample_bright (c : Config) (b : Rat) (t : Time) (rx : RxState) :
    (takeSample c b t rx).bright = rx.bright :=
  by simp only [takeSample, addSample_bright, countFrame_bright, anchorWindow_bright]
@[simp] theorem takeSample_win (c : Config) (b : Rat) (t : Time) (rx : RxState) :
    (takeSample c b t rx).win = windowKeeps c rx.win b ++ [b] :=
  by simp only [takeSample, addSample_win, countFrame_win, anchorWindow_win]
@[simp] theorem takeSample_winAnchor (c : Config) (b : Rat) (t : Time) (rx : RxState) :
    (takeSample c b t rx).winAnchor = if rx.first then t else rx.winAnchor :=
  by simp only [takeSample, addSample_winAnchor, countFrame_winAnchor, anchorWindow_winAnchor]
@[simp] theorem takeSample_fpsCount (c : Config) (b : Rat) (t : Time) (rx : RxState) :
    (takeSample c b t rx).fpsCount = if literals.fpsWindowMs ≤ t - (if rx.first = true then t else rx.fpsT0) then 0 else rx.fpsCount + 1 :=
  by simp only [takeSample, addSample_fpsCount, countFrame_fpsCount, anchorWindow_fpsCount, anchorWindow_fpsT0]
@[simp] theorem takeSample_fpsT0 (c : Config) (b : Rat) (t : Time) (rx : RxState) :
    (takeSample c b t rx).fpsT0 = if literals.fpsWindowMs ≤ t - (if rx.first = true then t else rx.fpsT0) then t else (if rx.first = true then t else rx.fpsT0) :=
  by simp only [takeSample, addSample_fpsT0, countFrame_fpsT0, anchorWindow_fpsT0]
@[simp] theorem takeSample_measFps (c : Config) (b : Rat) (t : Time) (rx : RxState) :
    (takeSample c b t rx).measFps = if literals.fpsWindowMs ≤ t - (if rx.first = true then t else rx.fpsT0) then ((rx.fpsCount + 1 : Nat) : Rat) else rx.measFps :=
  by simp only [takeSample, addSample_measFps, countFrame_measFps, anchorWindow_measFps, anchorWindow_fpsT0, anchorWindow_fpsCount]
@[simp] theorem takeSample_threshold (c : Config) (b : Rat) (t : Time) (rx : RxState) :
    (takeSample c b t rx).threshold = rx.threshold :=
  by simp only [takeSample, addSample_threshold, countFrame_threshold, anchorWindow_threshold]
@[simp] theorem takeSample_cls (c : Config) (b : Rat) (t : Time) (rx : RxState) :
    (takeSample c b t rx).cls = rx.cls := by simp only [takeSample, addSample_cls, countFrame_cls, anchorWindow_cls]
@[simp] theorem takeSample_lastBit (c : Config) (b : Rat) (t : Time) (rx : RxState) :
    (takeSample c b t rx).lastBit = rx.lastBit :=
  by simp only [takeSample, addSample_lastBit, countFrame_lastBit, anchorWindow_lastBit]
@[simp] theorem takeSample_stream (c : Config) (b : Rat) (t : Time) (rx : RxState) :
    (takeSample c b t rx).stream = rx.stream :=
  by simp only [takeSample, addSample_stream, countFrame_stream, anchorWindow_stream]
@[simp] theorem takeSample_expected (c : Config) (b : Rat) (t : Time) (rx : RxState) :
    (takeSample c b t rx).expected = rx.expected :=
  by simp only [takeSample, addSample_expected, countFrame_expected, anchorWindow_expected]
@[simp] theorem takeSample_matchResult (c : Config) (b : Rat) (t : Time) (rx : RxState) :
    (takeSample c b t rx).matchResult = rx.matchResult :=
  by simp only [takeSample, addSample_matchResult, countFrame_matchResult, anchorWindow_matchResult]

end Sys2Proof.Machine
end

