-- ==== Sys2Proof/Laws/Ops.lean ====
section
/-! SUPPORT. For each shared operation, one lemma that says once what it answers or everything it can do; later
proofs cite these and do not unfold the operation again. -/

namespace Sys2Proof.Machine

/-! ## Ends of a command -/

theorem done_eq (s : State) : done s = .next { s with response := some ⟨.ok, .nothing⟩ } := rfl

theorem doneWith_eq (d : ResponseData) (s : State) : doneWith d s = .next { s with response := some ⟨.ok, d⟩ } := rfl

theorem raise_eq (f : Status) (s : State) : raise f s = .next { s with response := some ⟨f, .nothing⟩ } := rfl

@[simp] theorem done_next_iff (s t : State) : done s = .next t ↔ t = respond .ok .nothing s :=
  ⟨fun h => by cases h; rfl, fun h => by subst h; rfl⟩

@[simp] theorem doneWith_next_iff (d : ResponseData) (s t : State) : doneWith d s = .next t ↔ t = respond .ok d s :=
  ⟨fun h => by cases h; rfl, fun h => by subst h; rfl⟩

@[simp] theorem raise_next_iff (f : Status) (s t : State) : raise f s = .next t ↔ t = respond f .nothing s :=
  ⟨fun h => by cases h; rfl, fun h => by subst h; rfl⟩

/-! ## Reads of the open parameters -/

@[simp] theorem roundBy_identity (raw : Rat) : roundBy .identity raw = raw := rfl

@[simp] theorem roundBy_floor (raw : Rat) : roundBy .floor raw = (⌊raw⌋ : Rat) := rfl

@[simp] theorem roundBy_nearest (ties : Ties) (raw : Rat) :
    roundBy (.nearest ties) raw = (nearestWhole ties raw : Rat) := rfl

@[simp] theorem roundBy_other (n : Nat) (raw : Rat) : roundBy (.other n) raw = Config.otherCalRound n raw := rfl

@[simp] theorem roundBy_atRate_self (q v : Rat) (r : CalRound) : roundBy (.atRate q v r) q = v := by simp [roundBy]

theorem roundBy_atRate_ne {raw q : Rat} (h : raw ≠ q) (v : Rat) (r : CalRound) :
    roundBy (.atRate q v r) raw = roundBy r raw := by simp [roundBy, h]

theorem roundRate_eq (c : Config) (raw : Rat) : roundRate c raw = roundBy c.calRound raw := rfl

@[simp] theorem tieFallsFrom_up (above : Int) : tieFallsFrom above .up = false := rfl

@[simp] theorem tieFallsFrom_down (above : Int) : tieFallsFrom above .down = true := rfl

@[simp] theorem tieFallsFrom_even (above : Int) : tieFallsFrom above .even = true ↔ above % 2 = 1 := by
  simp [tieFallsFrom]

/-- The nearest whole number is at most one half away. -/
theorem nearestWhole_near (ties : Ties) (raw : Rat) :
    raw - 1 / 2 ≤ (nearestWhole ties raw : Rat) ∧ (nearestWhole ties raw : Rat) ≤ raw + 1 / 2 := by
  have below := Int.floor_le (raw + 1 / 2)
  have beyond := Int.lt_floor_add_one (raw + 1 / 2)
  simp only [nearestWhole]
  split
  · next h => push_cast; constructor <;> linarith [h.1]
  · constructor <;> linarith

/-- Half way between two whole numbers, the rule for ties chooses. -/
theorem nearestWhole_tie {raw : Rat} (h : raw - (⌊raw⌋ : Rat) = 1 / 2) (ties : Ties) :
    nearestWhole ties raw = if tieFallsFrom (⌊raw⌋ + 1) ties = true then ⌊raw⌋ else ⌊raw⌋ + 1 := by
  have half : raw + 1 / 2 = ((⌊raw⌋ + 1 : Int) : Rat) := by push_cast; linarith
  simp only [nearestWhole, half, Int.floor_intCast, true_and, add_sub_cancel_right]

@[simp] theorem failedSample_empty {c : Config} (h : c.failedFrames = []) (ts : BitVec 64) :
    failedSample c ts = none := by
  simp [failedSample, h]

/-- A corrupted sample is a brightness. -/
theorem failedSample_range {c : Config} {ts : BitVec 64} {b : Rat} (h : failedSample c ts = some b) :
    0 ≤ b ∧ b ≤ 255 := by
  obtain ⟨e, -, rfl⟩ := Option.map_eq_some_iff.mp h
  exact ⟨le_max_left .., max_le (by norm_num) (min_le_left ..)⟩

/-- A window that is not full keeps every sample. -/
theorem windowKeeps_of_room {c : Config} {win : List Rat} (h : ∀ n, c.winMax = some n → win.length < n) (b : Rat) :
    windowKeeps c win b = win := by
  unfold windowKeeps
  cases hc : c.winMax with
  | none => rfl
  | some n => simp [h n hc]

theorem zip_fst_sublist {α β : Type} : ∀ (l : List α) (m : List β), ((l.zip m).map Prod.fst).Sublist l
  | [], _ => by simp
  | _ :: _, [] => by simp
  | _ :: l, _ :: m => by simpa using zip_fst_sublist l m

/-- The samples kept are samples of the window, in order. -/
theorem windowKeeps_sublist (c : Config) (win : List Rat) (b : Rat) : (windowKeeps c win b).Sublist win := by
  unfold windowKeeps
  split
  · exact .refl _
  · split
    · exact .refl _
    · exact (List.take_sublist ..).trans ((List.filter_sublist.map Prod.fst).trans (zip_fst_sublist ..))

/-- With the sample that joins, a window that held no more than WIN_MAX samples again holds no more. -/
theorem windowKeeps_length {c : Config} {n : Nat} (h : c.winMax = some n) (win : List Rat) (b : Rat) :
    (windowKeeps c win b).length ≤ n - 1 := by
  unfold windowKeeps
  simp only [h]
  split
  · omega
  · exact List.length_take_le ..

/-! ## The port and the step -/

theorem fetch_command {s : State} {i : Instr} {rest : List Byte} (h : decode s.port = .command i rest) :
    fetch s = .command i rest := by
  have hne : s.port ≠ [] := by rintro h0; simp [h0, decode] at h
  simp [fetch, hne, h]

theorem fetch_reject {s : State} {why : Reject} {rest : List Byte} (h : decode s.port = .reject why rest)
    (hw : why ≠ .truncated) : fetch s = .illegal why rest := by
  have hne : s.port ≠ [] := by
    rintro h0; rw [h0] at h; simp only [decode, Decoded.reject.injEq] at h; exact hw h.1.symm
  cases why <;> simp_all [fetch]

/-- Everything a fetch can find. -/
theorem fetch_cases (s : State) :
    fetch s = .wait ∨ (∃ i rest, decode s.port = .command i rest ∧ fetch s = .command i rest) ∨
      ∃ why rest, decode s.port = .reject why rest ∧ fetch s = .illegal why rest := by
  unfold fetch
  split
  · exact .inl rfl
  · cases hd : decode s.port with
    | command i rest => exact .inr (.inl ⟨i, rest, rfl, rfl⟩)
    | reject why rest => cases why <;> simp

/-- Everything a step that answers a next state can have done. -/
theorem step_cases {s s' : State} (h : step s = .next s') :
    (fetch s = .wait ∧ s' = clearOutputs s) ∨
    (∃ i rest, decode s.port = .command i rest ∧ exec i (setPort rest s) = .next s') ∨
    (∃ why rest, fetch s = .illegal why rest ∧ s' = respond .illegalCommand .nothing (clearOutputs (setPort rest s))) := by
  rcases fetch_cases s with hf | ⟨i, rest, hd, hf⟩ | ⟨why, rest, hd, hf⟩ <;> simp only [step, hf] at h
  · exact .inl ⟨hf, by cases h; rfl⟩
  · exact .inr (.inl ⟨i, rest, hd, h⟩)
  · exact .inr (.inr ⟨why, rest, hf, by simpa [refuseCommand] using h⟩)

/-! ## Unit U1 -/

/-- Everything a calibration callback that answers a next state can have done. -/
theorem calTick_cases {t : Time} {s s' : State} (h : calTick t s = .next s') :
    s.txTime ≤ t ∧ s.tx.calT0 ≤ t ∧
    ((s.tx.calCount + 1 ≠ 60 ∧
        s' = respond .ok .nothing (setTxTime t (setTx { s.tx with calCount := s.tx.calCount + 1 } s))) ∨
     (s.tx.calCount + 1 = 60 ∧ ∃ bit, s.tx.code[0]? = some bit ∧
        s' = respond .ok .nothing (emit (.txUpdate (some bit)) (setTxTime t
          (setTx (beginLoop (measuredRate s.config (t - s.tx.calT0)) t bit
            { s.tx with calCount := s.tx.calCount + 1 }) s))))) := by
  simp only [calTick, literals_calFrames] at h
  split at h
  · cases h
  · next ht =>
    refine ⟨by grind, by grind, ?_⟩
    split at h
    · next hc =>
      split at h
      · cases h
      · next bit hb => exact .inr ⟨hc, bit, hb, by simpa using h⟩
    · next hc => exact .inl ⟨hc, by simpa using h⟩

/-- A loop iteration answers a next state exactly under these conditions. -/
theorem runTick_next_iff {t : Time} {s s' : State} :
    runTick t s = .next s' ↔
      s.txTime ≤ t ∧ s.tx.epoch ≤ t ∧ s.tx.fpsT0 ≤ t ∧ s.tx.code ≠ [] ∧ 0 < s.tx.bitDur ∧
      s' = respond .ok .nothing (setTxTime t
        (setTx (countTick t (showIndex (bitIndexAt (t - s.tx.epoch) s.tx.bitDur s.tx.code.length) s).tx)
          (showIndex (bitIndexAt (t - s.tx.epoch) s.tx.bitDur s.tx.code.length) s))) := by
  unfold runTick
  split
  · next h => constructor <;> intro h' <;> [cases h'; (rcases h with h | h | h <;> grind)]
  · next h =>
    split
    · next hc => simp [hc]
    · next hc =>
      split
      · next hd => constructor <;> intro h' <;> [cases h'; grind]
      · next hd =>
        simp only [done_next_iff]
        constructor
        · intro h'; exact ⟨by grind, by grind, by grind, hc, by grind, h'⟩
        · exact fun h' => h'.2.2.2.2.2

/-- Everything `TX.TICK` that answers a next state can have done. -/
theorem txTick_cases {t : Time} {s s' : State} (h : txTick t s = .next s') :
    ((s.tx.active = false ∨ s.tx.phase = .idle) ∧ s' = respond .ok .nothing s) ∨
    (s.tx.active = true ∧ s.tx.phase = .cal ∧ calTick t s = .next s') ∨
    (s.tx.active = true ∧ s.tx.phase = .run ∧ runTick t s = .next s') := by
  unfold txTick at h
  cases ha : s.tx.active <;> simp only [ha] at h
  · exact .inl ⟨.inl rfl, by simpa using h⟩
  · cases hp : s.tx.phase <;> simp only [hp] at h
    · exact .inl ⟨.inr rfl, by simpa using h⟩
    · exact .inr (.inl ⟨rfl, rfl, h⟩)
    · exact .inr (.inr ⟨rfl, rfl, h⟩)

theorem bitIndexAt_lt {e d : Time} {n : Nat} (h : n ≠ 0) : bitIndexAt e d n < n := by
  have h0 : (0 : Int) < n := by omega
  have h1 := Int.emod_nonneg ⌊e / d⌋ h0.ne'
  have h2 := Int.emod_lt_of_pos ⌊e / d⌋ h0
  simp only [bitIndexAt]; omega

@[simp] theorem showIndex_rx (idx : Nat) (s : State) : (showIndex idx s).rx = s.rx := by unfold showIndex; split <;> rfl
@[simp] theorem showIndex_port (idx : Nat) (s : State) : (showIndex idx s).port = s.port := by
  unfold showIndex; split <;> rfl
@[simp] theorem showIndex_inputEnded (idx : Nat) (s : State) : (showIndex idx s).inputEnded = s.inputEnded := by
  unfold showIndex; split <;> rfl
@[simp] theorem showIndex_config (idx : Nat) (s : State) : (showIndex idx s).config = s.config := by
  unfold showIndex; split <;> rfl
@[simp] theorem showIndex_txTime (idx : Nat) (s : State) : (showIndex idx s).txTime = s.txTime := by
  unfold showIndex; split <;> rfl
@[simp] theorem showIndex_rxTime (idx : Nat) (s : State) : (showIndex idx s).rxTime = s.rxTime := by
  unfold showIndex; split <;> rfl
@[simp] theorem showIndex_response (idx : Nat) (s : State) : (showIndex idx s).response = s.response := by
  unfold showIndex; split <;> rfl
theorem showIndex_events (idx : Nat) (s : State) :
    (showIndex idx s).events = if idx = s.tx.bitIndex then s.events else s.events ++ [.txUpdate s.tx.code[idx]?] := by
  unfold showIndex; split <;> rfl
theorem showIndex_tx (idx : Nat) (s : State) :
    (showIndex idx s).tx =
      if idx = s.tx.bitIndex then s.tx else { s.tx with bitIndex := idx, curBit := s.tx.code[idx]? } := by
  unfold showIndex; split <;> rfl

/-! ## Units U2, U3, U4 -/

theorem rxStop_eq (s : State) :
    rxStop s = { s with rx := rxStopWrites s.rx, events := s.events ++ (if s.rx.active then [.camRelease] else []) } := by
  unfold rxStop; split <;> simp [setRx, emit]

theorem matchAction_eq (s : State) :
    matchAction s = { s with
      rx := rxStopWrites s.rx
      events := s.events ++ [.matched { rxStatusOf s.rx with matchResult := .granted }]
        ++ (if s.rx.active then [.camRelease] else []) } := by
  simp [matchAction, rxStop_eq, setRx, emit, rxStopWrites, clearDecoding, rxStatusOf]

/-- Everything MATCH can do. -/
theorem runMatch_cases (s : State) :
    (s.rx.expected ≠ [] ∧ patternFound s.rx.expected s.rx.stream = true ∧ runMatch s = matchAction s) ∨
    ((s.rx.expected = [] ∨ patternFound s.rx.expected s.rx.stream = false) ∧ runMatch s = s) := by
  unfold runMatch
  split
  · next h => exact .inr ⟨.inl h, rfl⟩
  · next h =>
    split
    · next h' => exact .inl ⟨h, h', rfl⟩
    · next h' => exact .inr ⟨.inr (by simpa using h'), rfl⟩

/-- The FPS counter's effect, register by register. -/
theorem countFrame_eq (t : Time) (rx : RxState) :
    countFrame t rx = { rx with
      measFps := if 1000 ≤ t - rx.fpsT0 then ((rx.fpsCount + 1 : Nat) : Rat) else rx.measFps
      fpsCount := if 1000 ≤ t - rx.fpsT0 then 0 else rx.fpsCount + 1
      fpsT0 := if 1000 ≤ t - rx.fpsT0 then t else rx.fpsT0 } := by
  unfold countFrame; rw [literals_fpsWindowMs]; split <;> rfl

/-- The transmitter's FPS counter, register by register. -/
theorem countTick_eq (t : Time) (tx : TxState) :
    countTick t tx = { tx with
      measFps := if 1000 ≤ t - tx.fpsT0 then ((tx.fpsCount + 1 : Nat) : Rat) else tx.measFps
      fpsCount := if 1000 ≤ t - tx.fpsT0 then 0 else tx.fpsCount + 1
      fpsT0 := if 1000 ≤ t - tx.fpsT0 then t else tx.fpsT0 } := by
  unfold countTick; rw [literals_fpsWindowMs]; split <;> rfl

/-- The first frame's anchoring, register by register. -/
theorem anchorWindow_eq (t : Time) (rx : RxState) :
    anchorWindow t rx = { rx with
      winAnchor := if rx.first then t else rx.winAnchor
      fpsT0 := if rx.first then t else rx.fpsT0
      first := false } := by
  unfold anchorWindow; cases h : rx.first <;> simp; cases rx; simp_all

/-- Everything a processed frame that answers a next state can have done. -/
theorem processSample_cases {b : Rat} {t : Time} {s s' : State} (h : processSample b t s = .next s') :
    (periodCloses t (takeSample s.config b t s.rx) = true ∧
        s' = respond .ok .nothing
          (runMatch (setRxTime t (setRx (closePeriod t (takeSample s.config b t s.rx)) s)))) ∨
    (periodCloses t (takeSample s.config b t s.rx) = false ∧
        s' = respond .ok .nothing (setRxTime t (setRx (takeSample s.config b t s.rx) s))) := by
  unfold processSample at h
  simp only at h
  split at h
  · next hc => exact .inl ⟨hc, by simpa using h⟩
  · next hc => exact .inr ⟨by simpa using hc, by simpa using h⟩

/-- A processed frame always answers a next state. -/
theorem processSample_next (b : Rat) (t : Time) (s : State) : ∃ s', processSample b t s = .next s' := by
  unfold processSample; simp only; split <;> exact ⟨_, rfl⟩

/-- When a frame's time does not run backwards. -/
theorem frameBackwards_eq_false {t : Time} {s : State} :
    frameBackwards t s = false ↔ (s.rx.first = false → s.rxTime ≤ t ∧ s.rx.winAnchor ≤ t) := by
  cases hf : s.rx.first <;> simp [frameBackwards, hf]

/-- Everything `RX.FRAME` that answers a next state can have done: nothing, one log line, or a processed sample, which
is the frame's brightness or a failed frame's corrupted sample. -/
theorem rxFrame_cases {ts : BitVec 64} {ready ctx fail : Bool} {px : List Pixel} {s s' : State}
    (h : rxFrame ts ready ctx fail px s = .next s') :
    ((s.rx.active = false ∨ (frameBackwards (timeOf ts) s = false ∧ (ctx = false ∨ ready = false))) ∧
      s' = respond .ok .nothing s) ∨
    (s.rx.active = true ∧ frameBackwards (timeOf ts) s = false ∧ ctx = true ∧ ready = true ∧
      (fail = true ∨ px = []) ∧ failedSample s.config ts = none ∧
      s' = respond .ok .nothing (emit (.log .runtimeCaptureError ts) s)) ∨
    (s.rx.active = true ∧ frameBackwards (timeOf ts) s = false ∧ ctx = true ∧ ready = true ∧
      (fail = true ∨ px = []) ∧ ∃ b, failedSample s.config ts = some b ∧
      processSample b (timeOf ts) (emit (.log .runtimeCaptureError ts) s) = .next s') ∨
    (s.rx.active = true ∧ frameBackwards (timeOf ts) s = false ∧ ctx = true ∧ ready = true ∧
      fail = false ∧ px ≠ [] ∧
      processSample (frameBrightness px) (timeOf ts) (setRx (recordBrightness (frameBrightness px) s.rx) s)
        = .next s') := by
  unfold rxFrame at h
  split at h
  · next h1 => exact .inl ⟨.inl (by simpa using h1), by simpa using h⟩
  · next h1 =>
    split at h
    · cases h
    · next hb =>
      replace hb : frameBackwards (timeOf ts) s = false := by simpa using hb
      replace h1 : s.rx.active = true := by simpa using h1
      split at h
      · next h2 => exact .inl ⟨.inr ⟨hb, by simpa using h2⟩, by simpa using h⟩
      · next h2 =>
        obtain ⟨h2c, h2r⟩ : ctx = true ∧ ready = true := by simpa using h2
        split at h
        · next h3 =>
          replace h3 : fail = true ∨ px = [] := by simpa using h3
          simp only [failedFrame] at h
          split at h
          · next hs => exact .inr (.inl ⟨h1, hb, h2c, h2r, h3, hs, by simpa using h⟩)
          · next b hs => exact .inr (.inr (.inl ⟨h1, hb, h2c, h2r, h3, b, hs, h⟩))
        · next h3 =>
          obtain ⟨h3f, h3p⟩ : fail = false ∧ px ≠ [] := by simpa using h3
          exact .inr (.inr (.inr ⟨h1, hb, h2c, h2r, h3f, h3p, h⟩))

theorem requestCamera_eq (cid : Option (List Byte)) (w h : BitVec 16) (s : State) :
    requestCamera cid w h s = { s with
      rx := sizeTarget w h (if s.rx.active then rxStopWrites s.rx else s.rx)
      events := s.events ++ (if s.rx.active then [.camRelease] else []) ++ [.camAcquire (camRequest cid)] } := by
  cases ha : s.rx.active <;> simp [requestCamera, ha, rxStop_eq, setRx, emit]

/-- Everything `RX.START` can do. -/
theorem rxStart_cases (video draw grant : Bool) (cid : Option (List Byte)) (w h : BitVec 16)
    (thr : BitVec 32) (e : List Symbol) (s : State) :
    ((video = false ∨ draw = false) ∧
      rxStart video draw grant cid w h thr e s = raise .missingCaptureSurface s) ∨
    (s.config.rxValidateCode = true ∧ e ≠ [] ∧ isBinaryCode e = false ∧
      rxStart video draw grant cid w h thr e s = raise .invalidCodeFormat s) ∨
    (grant = false ∧
      rxStart video draw grant cid w h thr e s = raise .cameraAcquisitionFailure (requestCamera cid w h s)) ∨
    (grant = true ∧
      rxStart video draw grant cid w h thr e s =
        done (setRx (beginRun (q16 thr) e (requestCamera cid w h s).rx) (requestCamera cid w h s))) := by
  unfold rxStart
  split
  · next h1 => exact .inl ⟨by simpa using h1, rfl⟩
  · split
    · next h2 => exact .inr (.inl ⟨by simp_all, by simp_all, by simp_all, rfl⟩)
    · cases grant <;> simp

end Sys2Proof.Machine
end

