-- ==== Sys2Proof/Laws/Commands.lean ====
section
/-! SUPPORT. For each command, one lemma that says once everything it can have done when it answers a next state;
proofs over all commands take these cases and unfold no meaning. -/

namespace Sys2Proof.Machine

/-! ## Commands that always answer the same state -/

theorem exec_txStop (s : State) :
    exec .txStop s = .next { s with tx := TxState.reset, response := some ⟨.ok, .nothing⟩, events := [] } := rfl

theorem exec_txColor (s : State) :
    exec .txColor s = .next { s with response := some ⟨.ok, .color (colorOut s.tx)⟩, events := [] } := rfl

theorem exec_txStatus (s : State) :
    exec .txStatus s = .next { s with response := some ⟨.ok, .txStatus (txStatusOf s.tx)⟩, events := [] } := rfl

theorem exec_rxStop (s : State) :
    exec .rxStop s = .next { s with
      rx := rxStopWrites s.rx, response := some ⟨.ok, .nothing⟩
      events := if s.rx.active then [.camRelease] else [] } := by
  simp [exec, execRxStop, done_eq, rxStop_eq, clearOutputs]

theorem exec_rxReset (s : State) :
    exec .rxReset s = .next { s with
      rx := clearDecoding s.rx, response := some ⟨.ok, .nothing⟩, events := [] } := rfl

theorem exec_rxStatus (s : State) :
    exec .rxStatus s = .next { s with response := some ⟨.ok, .rxStatus (rxStatusOf s.rx)⟩, events := [] } := rfl

/-! ## Starts -/

/-- `TX.START` always answers a next state, by its code. -/
theorem exec_txStart (now : BitVec 64) (fps : BitVec 32) (code : List Symbol) (s : State) :
    exec (.txStart now fps code) s = .next (if isBinaryCode code then
      { s with
        tx := txAccept (timeOf now) (q16 fps) (code.map bitOf) (txImplicitStop s.tx)
        txTime := timeOf now
        response := some ⟨.ok, .nothing⟩, events := [] }
      else { s with response := some ⟨.invalidCodeFormat, .nothing⟩, events := [] }) := by
  cases hb : isBinaryCode code <;> simp [exec, execTxStart, hb, done_eq, raise_eq, setTx, setTxTime, clearOutputs]

/-- `RX.START` always answers a next state, by its surface flags, RX_VALIDATE_CODE and the platform's answer. -/
theorem exec_rxStart (video draw grant : Bool) (cid : Option (List Byte)) (w h : BitVec 16) (thr : BitVec 32)
    (e : List Symbol) (s : State) :
    exec (.rxStart video draw grant cid w h thr e) s = .next (
      let sized := sizeTarget w h (if s.rx.active then rxStopWrites s.rx else s.rx)
      let asked := (if s.rx.active then [Event.camRelease] else []) ++ [.camAcquire (camRequest cid)]
      if video = false ∨ draw = false then
        { s with response := some ⟨.missingCaptureSurface, .nothing⟩, events := [] }
      else if s.config.rxValidateCode = true ∧ e ≠ [] ∧ isBinaryCode e = false then
        { s with response := some ⟨.invalidCodeFormat, .nothing⟩, events := [] }
      else if grant then
        { s with rx := beginRun (q16 thr) e sized, response := some ⟨.ok, .nothing⟩, events := asked }
      else { s with rx := sized, response := some ⟨.cameraAcquisitionFailure, .nothing⟩, events := asked }) := by
  by_cases hv : s.config.rxValidateCode = true ∧ e ≠ [] ∧ isBinaryCode e = false
  · cases video <;> cases draw <;> simp [exec, execRxStart, rxStart, raise_eq, clearOutputs, hv]
  · have hv' : ¬ ((s.config.rxValidateCode = true ∧ e ≠ []) ∧ isBinaryCode e = false) := fun h => hv ⟨h.1.1, h.1.2, h.2⟩
    cases video <;> cases draw <;> cases grant <;>
      simp [exec, execRxStart, rxStart, raise_eq, done_eq, clearOutputs, requestCamera_eq, setRx, hv, hv']

/-! ## The clocked commands -/

/-- Everything `TX.TICK` that answers a next state can have done: nothing, one calibration count, the begin of the
loop, or one loop iteration. -/
theorem exec_txTick_cases {ts : BitVec 64} {s s' : State} (h : exec (.txTick ts) s = .next s') :
    ((s.tx.active = false ∨ s.tx.phase = .idle) ∧
      s' = { s with response := some ⟨.ok, .nothing⟩, events := [] }) ∨
    (s.tx.active = true ∧ s.tx.phase = .cal ∧ s.txTime ≤ timeOf ts ∧ s.tx.calT0 ≤ timeOf ts ∧
      s.tx.calCount + 1 ≠ 60 ∧
      s' = { s with
        tx := { s.tx with calCount := s.tx.calCount + 1 }, txTime := timeOf ts
        response := some ⟨.ok, .nothing⟩, events := [] }) ∨
    (s.tx.active = true ∧ s.tx.phase = .cal ∧ s.txTime ≤ timeOf ts ∧ s.tx.calT0 ≤ timeOf ts ∧
      s.tx.calCount + 1 = 60 ∧ ∃ bit, s.tx.code[0]? = some bit ∧
      s' = { s with
        tx := beginLoop (measuredRate s.config (timeOf ts - s.tx.calT0)) (timeOf ts) bit
          { s.tx with calCount := s.tx.calCount + 1 }
        txTime := timeOf ts
        response := some ⟨.ok, .nothing⟩, events := [.txUpdate (some bit)] }) ∨
    (s.tx.active = true ∧ s.tx.phase = .run ∧ s.txTime ≤ timeOf ts ∧ s.tx.epoch ≤ timeOf ts ∧
      s.tx.fpsT0 ≤ timeOf ts ∧ s.tx.code ≠ [] ∧
      0 < s.tx.bitDur ∧ ∃ idx, idx = bitIndexAt (timeOf ts - s.tx.epoch) s.tx.bitDur s.tx.code.length ∧
      s' = { s with
        tx := countTick (timeOf ts)
          (if idx = s.tx.bitIndex then s.tx else { s.tx with bitIndex := idx, curBit := s.tx.code[idx]? })
        txTime := timeOf ts
        response := some ⟨.ok, .nothing⟩
        events := if idx = s.tx.bitIndex then [] else [.txUpdate s.tx.code[idx]?] }) := by
  rcases txTick_cases h with ⟨h1, rfl⟩ | ⟨h1, h2, h3⟩ | ⟨h1, h2, h3⟩
  · exact .inl ⟨h1, rfl⟩
  · obtain ⟨ha, hb, ⟨h4, rfl⟩ | ⟨h4, bit, h5, rfl⟩⟩ := calTick_cases h3
    · exact .inr (.inl ⟨h1, h2, ha, hb, h4, rfl⟩)
    · exact .inr (.inr (.inl ⟨h1, h2, ha, hb, h4, bit, h5, rfl⟩))
  · obtain ⟨a, b, c, d, e, rfl⟩ := runTick_next_iff.mp h3
    refine .inr (.inr (.inr ⟨h1, h2, a, b, c, d, e, _, rfl, ?_⟩))
    simp [respond, setTx, setTxTime, showIndex_tx, showIndex_events, clearOutputs]

/-- Everything a processed frame's sample `b` can do after the events in `s`: the state before the close point, at it,
or with a match. -/
theorem processSample_outcome {b : Rat} {t : Time} {s s' : State} (h : processSample b t s = .next s') :
    ∃ rx, rx = takeSample s.config b t s.rx ∧
      ((periodCloses t rx = false ∧ s' = { s with rx := rx, rxTime := t, response := some ⟨.ok, .nothing⟩ }) ∨
       (periodCloses t rx = true ∧ ∃ closed, closed = closePeriod t rx ∧
         (((closed.expected = [] ∨ patternFound closed.expected closed.stream = false) ∧
            s' = { s with rx := closed, rxTime := t, response := some ⟨.ok, .nothing⟩ }) ∨
          (closed.expected ≠ [] ∧ patternFound closed.expected closed.stream = true ∧
            s' = { s with
              rx := rxStopWrites closed, rxTime := t, response := some ⟨.ok, .nothing⟩
              events := s.events ++ [.matched { rxStatusOf closed with matchResult := .granted }]
                ++ (if closed.active then [.camRelease] else []) })))) := by
  refine ⟨_, rfl, ?_⟩
  obtain ⟨h2, rfl⟩ | ⟨h2, rfl⟩ := processSample_cases h
  · refine .inr ⟨h2, _, rfl, ?_⟩
    obtain ⟨a, b, c⟩ | ⟨a, c⟩ :=
      runMatch_cases (setRxTime t (setRx (closePeriod t (takeSample s.config b t s.rx)) s))
    · refine .inr ⟨a, b, ?_⟩
      rw [c, matchAction_eq]; rfl
    · exact .inl ⟨a, by rw [c]; rfl⟩
  · exact .inl ⟨h2, rfl⟩

/-- Everything `RX.FRAME` that answers a next state can have done: nothing, one log line, or a processed sample (the
frame's brightness, or a failed frame's corrupted sample behind its log line), before the close point, at it, or with
a match. -/
theorem exec_rxFrame_cases {ts : BitVec 64} {ready ctx fail : Bool} {px : List Pixel} {s s' : State}
    (h : exec (.rxFrame ts ready ctx fail px) s = .next s') :
    ((s.rx.active = false ∨ ctx = false ∨ ready = false) ∧
      s' = { s with response := some ⟨.ok, .nothing⟩, events := [] }) ∨
    (s.rx.active = true ∧ (fail = true ∨ px = []) ∧ failedSample s.config ts = none ∧
      s' = { s with response := some ⟨.ok, .nothing⟩, events := [.log .runtimeCaptureError ts] }) ∨
    (s.rx.active = true ∧ ctx = true ∧ ready = true ∧
      (s.rx.first = false → s.rxTime ≤ timeOf ts ∧ s.rx.winAnchor ≤ timeOf ts) ∧
      ∃ b rx0 logged,
        ((fail = true ∨ px = []) ∧ failedSample s.config ts = some b ∧ rx0 = s.rx ∧
            logged = [.log .runtimeCaptureError ts] ∨
          fail = false ∧ px ≠ [] ∧ b = frameBrightness px ∧ rx0 = recordBrightness b s.rx ∧ logged = []) ∧
      ∃ rx, rx = takeSample s.config b (timeOf ts) rx0 ∧
        ((periodCloses (timeOf ts) rx = false ∧
            s' = { s with rx := rx, rxTime := timeOf ts, response := some ⟨.ok, .nothing⟩, events := logged }) ∨
         (periodCloses (timeOf ts) rx = true ∧ ∃ closed, closed = closePeriod (timeOf ts) rx ∧
           (((closed.expected = [] ∨ patternFound closed.expected closed.stream = false) ∧
              s' = { s with
                rx := closed, rxTime := timeOf ts, response := some ⟨.ok, .nothing⟩, events := logged }) ∨
            (closed.expected ≠ [] ∧ patternFound closed.expected closed.stream = true ∧
              s' = { s with
                rx := rxStopWrites closed, rxTime := timeOf ts, response := some ⟨.ok, .nothing⟩
                events := logged ++ [.matched { rxStatusOf closed with matchResult := .granted }, .camRelease] }))))) := by
  rcases rxFrame_cases h with ⟨h1, rfl⟩ | ⟨h1, -, -, -, h2, h3, rfl⟩ | ⟨h1, hb, hc, hr, h2, b, h3, h4⟩ |
    ⟨h1, hb, hc, hr, h2, h3, h4⟩
  · exact .inl ⟨h1.imp id And.right, rfl⟩
  · exact .inr (.inl ⟨h1, h2, h3, rfl⟩)
  all_goals
    refine .inr (.inr ⟨h1, hc, hr, frameBackwards_eq_false.mp hb, ?_⟩)
    have h1' : s.rx.active = true := h1
  · refine ⟨b, _, _, .inl ⟨h2, h3, rfl, rfl⟩, ?_⟩
    obtain ⟨rx, rfl, ⟨p, rfl⟩ | ⟨p, cl, rfl, ⟨q, rfl⟩ | ⟨q, r, rfl⟩⟩⟩ := processSample_outcome h4
    · exact ⟨_, rfl, .inl ⟨p, rfl⟩⟩
    · exact ⟨_, rfl, .inr ⟨p, _, rfl, .inl ⟨q, rfl⟩⟩⟩
    · exact ⟨_, rfl, .inr ⟨p, _, rfl, .inr ⟨q, r, by simp [h1', emit, clearOutputs]⟩⟩⟩
  · refine ⟨_, _, _, .inr ⟨h2, h3, rfl, rfl, rfl⟩, ?_⟩
    obtain ⟨rx, rfl, ⟨p, rfl⟩ | ⟨p, cl, rfl, ⟨q, rfl⟩ | ⟨q, r, rfl⟩⟩⟩ := processSample_outcome h4
    · exact ⟨_, rfl, .inl ⟨p, rfl⟩⟩
    · exact ⟨_, rfl, .inr ⟨p, _, rfl, .inl ⟨q, rfl⟩⟩⟩
    · exact ⟨_, rfl, .inr ⟨p, _, rfl, .inr ⟨q, r, by simp [h1', setRx, clearOutputs]⟩⟩⟩

end Sys2Proof.Machine
end

