-- ==== Sys2Proof/Laws/Decode.lean ====
section
/-! SUPPORT. The codec's small lemmas: little-endian numbers, slices, pixels, flag bytes, opcodes. -/

namespace Sys2Proof

/-! ## Little-endian numbers -/

@[simp] theorem leBytes_length (n v : Nat) : (leBytes n v).length = n := by
  induction n generalizing v with
  | zero => rfl
  | succ n ih => simp [leBytes, ih]

theorem leValue_leBytes (n v : Nat) : leValue (leBytes n v) = v % 256 ^ n := by
  induction n generalizing v with
  | zero => simp [leBytes, leValue, Nat.mod_one]
  | succ n ih =>
    have h : v % 256 ^ (n + 1) = v % 256 + 256 * (v / 256 % 256 ^ n) := by
      rw [pow_succ, Nat.mul_comm (256 ^ n) 256, Nat.mod_mul]
    simp only [leBytes, leValue, ih, BitVec.toNat_ofNat, h]

theorem leValue_lt (bs : List Byte) : leValue bs < 256 ^ bs.length := by
  induction bs with
  | nil => simp [leValue]
  | cons b bs ih =>
    have := b.isLt
    simp only [leValue, List.length_cons, pow_succ]
    omega

theorem leBytes_leValue (bs : List Byte) : leBytes bs.length (leValue bs) = bs := by
  induction bs with
  | nil => rfl
  | cons b bs ih =>
    have h1 : (b.toNat + 256 * leValue bs) / 256 = leValue bs := by have := b.isLt; omega
    have h2 : BitVec.ofNat 8 (b.toNat + 256 * leValue bs) = b := by
      apply BitVec.eq_of_toNat_eq
      have := b.isLt
      simp only [BitVec.toNat_ofNat]; omega
    simp only [List.length_cons, leBytes, leValue, h1, h2, ih]

/-! ## Slices -/

@[simp] theorem slice_length (p : List Byte) (lo n : Nat) : (slice p lo n).length = min n (p.length - lo) := by
  simp [slice]

theorem slice_mid (a b c : List Byte) (lo n : Nat) (ha : a.length = lo) (hb : b.length = n) :
    slice (a ++ (b ++ c)) lo n = b := by
  subst ha; subst hb; simp [slice]

/-! ## Pixels -/

theorem pixelsOf_flatMap (px : List Pixel) (rest : List Byte) (h : rest = []) :
    pixelsOf (px.flatMap pixelBytes ++ rest) = px := by
  subst h
  induction px with
  | nil => simp [pixelsOf]
  | cons p px ih =>
    simp only [List.append_nil] at ih
    simp [pixelBytes, pixelsOf, ih]

@[simp] theorem flatMap_pixelBytes_length (px : List Pixel) : (px.flatMap pixelBytes).length = 3 * px.length := by
  induction px with
  | nil => rfl
  | cons p px ih => simp [pixelBytes, ih]; omega

/-! ## Well-formedness, one lemma for each check -/

theorem wf_txStart_iff (now : BitVec 64) (fps : BitVec 32) (code : List Symbol) :
    (Instr.txStart now fps code).wf = true ↔ code.length ≤ 65535 := decide_eq_true_iff

theorem wf_rxStart_iff (video draw grant : Bool) (cid : Option (List Byte)) (srcw srch : BitVec 16) (thr : BitVec 32)
    (expected : List Symbol) :
    (Instr.rxStart video draw grant cid srcw srch thr expected).wf = true ↔
      expected.length ≤ 65535 ∧ (cid.getD []).length ≤ 255 := by
  show (decide (expected.length ≤ literals.codeMax) && decide ((cid.getD []).length ≤ 255)) = true ↔ _
  rw [Bool.and_eq_true, decide_eq_true_iff, decide_eq_true_iff, literals_codeMax]

theorem wf_rxFrame_iff (ts : BitVec 64) (ready ctx fail : Bool) (pixels : List Pixel) :
    (Instr.rxFrame ts ready ctx fail pixels).wf = true ↔ pixels.length < 2 ^ 32 := decide_eq_true_iff

/-! ## Flag bytes and opcodes -/

theorem flagByte_bits (b0 b1 b2 b3 : Bool) :
    (flagByte b0 b1 b2 b3).getLsbD 0 = b0 ∧ (flagByte b0 b1 b2 b3).getLsbD 1 = b1 ∧
      (flagByte b0 b1 b2 b3).getLsbD 2 = b2 ∧ (flagByte b0 b1 b2 b3).getLsbD 3 = b3 ∧
      (flagByte b0 b1 b2 b3).extractLsb' 4 4 = 0 := by
  revert b0 b1 b2 b3; decide

theorem flagByte_reserved (b0 b1 b2 : Bool) : (flagByte b0 b1 b2 false).extractLsb' 3 5 = 0 := by
  revert b0 b1 b2; decide

@[simp] theorem opcodeOf_opcodeByte (o : Opcode) : opcodeOf (opcodeByte o) = some o := by cases o <;> rfl

theorem opcodeByte_of_opcodeOf {b : Byte} {o : Opcode} (h : opcodeOf b = some o) : b = opcodeByte o := by
  have := List.find?_some h
  simpa using (beq_iff_eq.mp this).symm

end Sys2Proof
end

