-- ==== Sys2Proof/Laws/PerInstr.lean ====
section
/-! SUPPORT. Statements about every command of the syntax, one lemma per constructor. -/

namespace Sys2Proof.Laws

/-- A packet opens with its command's opcode (rules R70, R77). -/
def OpcodeFirst.Statement (i : Instr) : Prop := (encode i).head? = some (opcodeByte (instrOpcode i))

theorem OpcodeFirst.txStart (now : BitVec 64) (fps : BitVec 32) (code : List Symbol) :
    OpcodeFirst.Statement (.txStart now fps code) := rfl
theorem OpcodeFirst.txTick (ts : BitVec 64) : OpcodeFirst.Statement (.txTick ts) := rfl
theorem OpcodeFirst.txStop : OpcodeFirst.Statement .txStop := rfl
theorem OpcodeFirst.txColor : OpcodeFirst.Statement .txColor := rfl
theorem OpcodeFirst.txStatus : OpcodeFirst.Statement .txStatus := rfl
theorem OpcodeFirst.rxStart (video draw grant : Bool) (cid : Option (List Byte)) (srcw srch : BitVec 16)
    (thr : BitVec 32) (expected : List Symbol) :
    OpcodeFirst.Statement (.rxStart video draw grant cid srcw srch thr expected) := rfl
theorem OpcodeFirst.rxFrame (ts : BitVec 64) (ready ctx fail : Bool) (pixels : List Pixel) :
    OpcodeFirst.Statement (.rxFrame ts ready ctx fail pixels) := rfl
theorem OpcodeFirst.rxStop : OpcodeFirst.Statement .rxStop := rfl
theorem OpcodeFirst.rxReset : OpcodeFirst.Statement .rxReset := rfl
theorem OpcodeFirst.rxStatus : OpcodeFirst.Statement .rxStatus := rfl

/-- The length fields of a well-formed command's packet give the packet's length, whatever follows it (rule R80). -/
def PacketLengthIsLength.Statement (i : Instr) : Prop :=
  i.wf = true → ∀ rest : List Byte,
    packetLength (opcodeFormat (instrOpcode i)) (encode i ++ rest) = (encode i).length

theorem PacketLengthIsLength.txStart (now : BitVec 64) (fps : BitVec 32) (code : List Symbol) :
    PacketLengthIsLength.Statement (.txStart now fps code) := by
  intro h rest
  have h1 : fieldNat (encode (.txStart now fps code) ++ rest) 13 2 = leValue (leBytes 2 code.length) := rfl
  have h2 := (wf_txStart_iff now fps code).mp h
  have h3 : code.length % 256 ^ 2 = code.length := Nat.mod_eq_of_lt (by omega)
  have h4 : (encode (.txStart now fps code)).length = 15 + code.length := by
    simp [encode, operandBytes]; omega
  rw [h4]; show 15 + fieldNat _ 13 2 = _
  rw [h1, leValue_leBytes, h3]
theorem PacketLengthIsLength.txTick (ts : BitVec 64) : PacketLengthIsLength.Statement (.txTick ts) :=
  fun _ _ => rfl
theorem PacketLengthIsLength.txStop : PacketLengthIsLength.Statement .txStop := fun _ _ => rfl
theorem PacketLengthIsLength.txColor : PacketLengthIsLength.Statement .txColor := fun _ _ => rfl
theorem PacketLengthIsLength.txStatus : PacketLengthIsLength.Statement .txStatus := fun _ _ => rfl
theorem PacketLengthIsLength.rxStart (video draw grant : Bool) (cid : Option (List Byte)) (srcw srch : BitVec 16)
    (thr : BitVec 32) (expected : List Symbol) :
    PacketLengthIsLength.Statement (.rxStart video draw grant cid srcw srch thr expected) := by
  intro h rest
  generalize hi : Instr.rxStart video draw grant cid srcw srch thr expected = i at *
  have h1 : fieldNat (encode i ++ rest) 10 2 = leValue (leBytes 2 expected.length) := by subst hi; rfl
  obtain ⟨h2, h3⟩ : expected.length ≤ 65535 ∧ (cid.getD []).length ≤ 255 := by
    subst hi; exact (wf_rxStart_iff ..).mp h
  have h4 : expected.length % 256 ^ 2 = expected.length := Nat.mod_eq_of_lt (by omega)
  rw [leValue_leBytes, h4] at h1
  have h5 : (byteAt (encode i ++ rest) (12 + expected.length)).toNat = (cid.getD []).length := by
    have : byteAt (encode i ++ rest) (12 + expected.length) = BitVec.ofNat 8 (cid.getD []).length := by
      have : ∃ pre : List Byte, pre.length = 12 + expected.length ∧
          encode i ++ rest = pre ++ BitVec.ofNat 8 (cid.getD []).length :: (cid.getD [] ++ rest) := by
        subst hi
        refine ⟨opcodeByte .rxStart :: flagByte video draw grant cid.isSome :: (leBytes 2 srcw.toNat
          ++ leBytes 2 srch.toNat ++ leBytes 4 thr.toNat ++ leBytes 2 expected.length ++ expected), ?_, ?_⟩
        · simp; omega
        · simp [encode, operandBytes, instrOpcode]
      obtain ⟨pre, hlen, heq⟩ := this
      simp [byteAt, heq, ← hlen]
    rw [this, BitVec.toNat_ofNat]; exact Nat.mod_eq_of_lt (by omega)
  have h6 : (encode i).length = 13 + expected.length + (cid.getD []).length := by
    subst hi; simp [encode, operandBytes]; omega
  have h7 : packetLength (opcodeFormat (instrOpcode i)) (encode i ++ rest)
      = 13 + fieldNat (encode i ++ rest) 10 2
        + (byteAt (encode i ++ rest) (12 + fieldNat (encode i ++ rest) 10 2)).toNat := by subst hi; rfl
  rw [h7, h1, h5, h6]
theorem PacketLengthIsLength.rxFrame (ts : BitVec 64) (ready ctx fail : Bool) (pixels : List Pixel) :
    PacketLengthIsLength.Statement (.rxFrame ts ready ctx fail pixels) := by
  intro h rest
  have h1 : fieldNat (encode (.rxFrame ts ready ctx fail pixels) ++ rest) 10 4 = leValue (leBytes 4 pixels.length) := rfl
  have h2 := (wf_rxFrame_iff ts ready ctx fail pixels).mp h
  have h3 : pixels.length % 256 ^ 4 = pixels.length := Nat.mod_eq_of_lt (by omega)
  have h4 : (encode (.rxFrame ts ready ctx fail pixels)).length = 14 + 3 * pixels.length := by
    simp only [encode, operandBytes, List.length_cons, List.length_append, leBytes_length, flatMap_pixelBytes_length]
    omega
  rw [h4]; show 14 + 3 * fieldNat _ 10 4 = _
  rw [h1, leValue_leBytes, h3]
theorem PacketLengthIsLength.rxStop : PacketLengthIsLength.Statement .rxStop := fun _ _ => rfl
theorem PacketLengthIsLength.rxReset : PacketLengthIsLength.Statement .rxReset := fun _ _ => rfl
theorem PacketLengthIsLength.rxStatus : PacketLengthIsLength.Statement .rxStatus := fun _ _ => rfl

end Sys2Proof.Laws
end

