-- ==== Sys2Proof/Tests/Slice0.lean ====
section
/-! SUPPORT. Small tests: expected values are worked out in the spec (95_test_vectors.md, cited as B<n>, V<n>, P<n>) or
by hand from its tables; and, for every statement with hypotheses, a witness that meets them together. -/

namespace Sys2Proof.Tests

open Sys2Proof Sys2Proof.Machine

-- Kernel evaluations one after the other: many at once exceed the sandbox's memory limit.
set_option Elab.async false

/-! ## Helpers -/

/-- The next state, where there is one. -/
def nextOf : Result → Option State
  | .next s => some s
  | _ => none

/-- The reason of a refusal, where there is one. -/
def refusalOf : Result → Option Refusal
  | .refused r => some r
  | _ => none

theorem next_of {r : Result} {P : State → Prop} [DecidablePred P] (h : (nextOf r).any (fun s => decide (P s)) = true) :
    ∃ s, r = .next s ∧ P s := by
  cases r with
  | next s => exact ⟨s, rfl, by simpa [nextOf] using h⟩
  | fault r => simp [nextOf] at h
  | refused r => simp [nextOf] at h

theorem refused_of {r : Result} {x : Refusal} (h : refusalOf r = some x) : r = .refused x := by
  cases r <;> simp_all [refusalOf]

/-- Calibrating code "01" at 60 frames per second from time 0, `n` callbacks counted. -/
def calib (n : Nat) : State :=
  { State.reset with
    tx := { TxState.reset with
      active := true, phase := .cal, code := [false, true], targetFps := 60, calCount := n } }

/-- Program P1 when its loop has just begun at 960 ms. -/
def looping : State :=
  { State.reset with
    tx := ⟨true, .run, [false, true], 0, some false, 60, 0, 60, 60, 100 / 3, 960, 125 / 2, 0, 960⟩
    txTime := 960 }

/-- An RX instance right after a granted start, with an expected code. -/
def started (expected : List Symbol) : State :=
  { State.reset with rx := { RxState.reset with active := true, drawW := 640, drawH := 480, expected := expected } }

/-- The same after one grey frame of 200 at time 0 (B9). -/
def sampling : State :=
  { State.reset with
    rx := { (started []).rx with first := false, bright := 200, win := [200], fpsCount := 1 } }

/-- A run that looks for "10" and has decoded "1" at 30 ms. -/
def decoding : State :=
  { State.reset with
    rx := { (started [0x31, 0x30]).rx with
      first := false, bright := 200, winAnchor := 30, fpsCount := 2
      cls := .lastWasOne, lastBit := some true, stream := [true] }
    rxTime := 30 }

/-- A device that rounds 62.5 to 62, checks the expected code, holds one sample, and on which the frame that fails at
40 ms is corrupted. -/
def chosen : Config where
  calRound := .nearest .even
  rxValidateCode := true
  winMax := some 1
  failedFrames := [(40000, 300)]

/-- One grey pixel (rule R83). -/
def grey (v : Byte) : List Pixel := [⟨v, v, v⟩]

/-! ## Well-formedness: an ill-formed command for each check, refused -/

theorem test_wf_code_too_long (now : BitVec 64) (fps : BitVec 32) :
    (Instr.txStart now fps (List.replicate 65536 0x30)).wf = false := by
  rw [← Bool.not_eq_true, wf_txStart_iff, List.length_replicate]; decide

theorem test_wf_expected_too_long :
    (Instr.rxStart true true true none 0 0 0 (List.replicate 65536 0x30)).wf = false := by
  rw [← Bool.not_eq_true, wf_rxStart_iff, List.length_replicate]; exact fun h => absurd h.1 (by decide)

theorem test_wf_camera_identifier_too_long :
    (Instr.rxStart true true true (some (List.replicate 256 0x61)) 0 0 0 []).wf = false := by
  rw [← Bool.not_eq_true, wf_rxStart_iff, Option.getD_some, List.length_replicate]; decide

theorem test_wf_too_many_pixels (p : Pixel) :
    (Instr.rxFrame 0 true true false (List.replicate (2 ^ 32) p)).wf = false := by
  rw [← Bool.not_eq_true, wf_rxFrame_iff, List.length_replicate]; decide

/-! ## Decoding: every constructor's packet, written out from its format (B1, rules R71 to R77) -/

theorem test_decode_txStart :
    decode [0x01, 0x40, 0x42, 0x0F, 0, 0, 0, 0, 0, 0x00, 0x80, 0x3B, 0x00, 0x01, 0x00, 0x31]
      = .command (.txStart 1000000 0x003B8000 [0x31]) [] := by decide

theorem test_decode_txTick : decode [0x02, 0x80, 0x61, 0x0F, 0, 0, 0, 0, 0] = .command (.txTick 1008000) [] := by decide

theorem test_decode_no_operand :
    decode [0x03] = .command .txStop [] ∧ decode [0x04] = .command .txColor [] ∧
      decode [0x05] = .command .txStatus [] ∧ decode [0x13] = .command .rxStop [] ∧
      decode [0x14] = .command .rxReset [] ∧ decode [0x15] = .command .rxStatus [] := by decide

/-- B1, and the flags one by one: VIDEO is bit 0, DRAW bit 1, GRANT bit 2, HASCID bit 3 (rule R74). -/
theorem test_decode_rxStart :
    decode [0x11, 0x03, 0x00, 0x05, 0xD0, 0x02, 0x00, 0x00, 0x64, 0x00, 0x02, 0x00, 0x31, 0x30, 0x00]
      = .command (.rxStart true true false none 1280 720 0x00640000 [0x31, 0x30]) [] ∧
    decode [0x11, 0x0D, 1, 0, 2, 0, 3, 0, 0, 0x80, 0x00, 0x00, 0x01, 0x7A]
      = .command (.rxStart true false true (some [0x7A]) 1 2 0x80000003 []) [] := by decide

/-- B1, and the flags one by one: READY is bit 0, CTX bit 1, FAIL bit 2; pixels in the order R, G, B (rule R75). -/
theorem test_decode_rxFrame :
    decode [0x12, 0x30, 0x75, 0, 0, 0, 0, 0, 0, 0x02, 0, 0, 0, 0] = .command (.rxFrame 30000 false true false []) [] ∧
    decode [0x12, 0x01, 0, 0, 0, 0, 0, 0, 0x80, 0x05, 2, 0, 0, 0, 1, 2, 3, 4, 5, 6, 0xEE]
      = .command (.rxFrame 0x8000000000000001 true false true [⟨1, 2, 3⟩, ⟨4, 5, 6⟩]) [0xEE] := by decide

/-- The encoder writes the bytes of B1. -/
theorem test_encode :
    encode (.txStart 5000 0x003C0000 [0x31, 0x31, 0x30, 0x30])
      = [0x01, 0x88, 0x13, 0, 0, 0, 0, 0, 0, 0x00, 0x00, 0x3C, 0x00, 0x04, 0x00, 0x31, 0x31, 0x30, 0x30] ∧
    encode (.rxStart true true true (some [0x63, 0x61, 0x6D, 0x30]) 0 720 0x00640000 [0x31, 0x30])
      = [0x11, 0x0F, 0x00, 0x00, 0xD0, 0x02, 0x00, 0x00, 0x64, 0x00, 0x02, 0x00, 0x31, 0x30, 0x04, 0x63, 0x61, 0x6D,
        0x30] := by decide

/-- B2: reserved opcodes and malformed packets. -/
theorem test_decode_rejects :
    decode [0x00] = .reject .reservedOpcode [] ∧ decode [0x21, 0x03] = .reject .reservedOpcode [0x03] ∧
    decode [0x02, 0x00, 0x00] = .reject .truncated [] ∧
    decode [0x11, 0x17, 0, 0, 0, 0, 0, 0, 0x80, 0, 0, 0, 0] = .reject .reservedFlag [] ∧
    decode [0x11, 0x07, 0, 0, 0, 0, 0, 0, 0x80, 0, 0, 0, 0x02, 0x41, 0x42] = .reject .cidWithoutFlag [] ∧
    decode [0x12, 0, 0, 0, 0, 0, 0, 0, 0, 0x0B, 0, 0, 0, 0] = .reject .reservedFlag [] := by decide

/-! ## The first step after reset, from a row's bits -/

theorem test_first_step_stop :
    decodeTableWord 8 0x13 = some .rxStop ∧
      (nextOf (step (State.reset.withFetchWord 8 0x13))).map (fun s => (s.port, s.response))
        = some ([], some ⟨.ok, .nothing⟩) := by decide +kernel

theorem test_first_step_start :
    decodeTableWord 8 0x11 = some (.rxStart false false false none 0 0 0 []) ∧
      (nextOf (step (State.reset.withFetchWord 8 0x11))).map (fun s => (s.port, s.response))
        = some ([], some ⟨.missingCaptureSurface, .nothing⟩) := by decide +kernel

/-! ## Each command, one step -/

/-- Worked line of rule R94. -/
theorem test_txStart_accepts :
    (nextOf (exec (.txStart 0 0x003C0000 [0x30, 0x31]) State.reset)).map (fun s => (s.tx, s.events))
      = some ((calib 0).tx, []) := by decide +kernel

/-- B3: a refused code leaves a calibration untouched. -/
theorem test_txStart_refuses :
    (nextOf (exec (.txStart 1300000 0x003C0000 [0x30, 0x31, 0x32]) (calib 30))).map (fun s => (s.tx, s.response))
      = some ((calib 30).tx, some ⟨.invalidCodeFormat, .nothing⟩) := by decide +kernel

/-- Worked line of rule R99, P1: the 60th callback, at 960 ms. -/
theorem test_txTick_begins_the_loop :
    (nextOf (exec (.txTick 960000) (calib 59))).map (fun s => (s.tx, s.events))
      = some (looping.tx, [.txUpdate (some false)]) := by decide +kernel

/-- B5: one microsecond before and after the bit boundary. -/
theorem test_txTick_bit_boundary :
    (nextOf (exec (.txTick 993333) looping)).map (fun s => (s.tx.bitIndex, s.events)) = some (0, []) ∧
    (nextOf (exec (.txTick 993334) looping)).map (fun s => (s.tx.bitIndex, s.events))
      = some (1, [.txUpdate (some true)]) := by decide +kernel

/-- V7, B7. -/
theorem test_txStop : (nextOf (exec .txStop looping)).map (fun s => (s.tx, s.rx, s.events))
    = some (TxState.reset, RxState.reset, []) := by decide +kernel

/-- B7: LIGHT for the bit '1', DARK for '0'. -/
theorem test_txColor :
    (nextOf (exec .txColor { looping with tx := { looping.tx with curBit := some true } })).map State.response
      = some (some ⟨.ok, .color .light⟩) ∧
    (nextOf (exec .txColor looping)).map State.response = some (some ⟨.ok, .color .dark⟩) := by decide +kernel

/-- P1's last line but for the time. -/
theorem test_txStatus :
    (nextOf (exec .txStatus looping)).map State.response
      = some (some ⟨.ok, .txStatus ⟨true, 0, some false, 125 / 2⟩⟩) := by decide +kernel

/-- B14: refused by the camera; the size is kept, the threshold and the expected code are not loaded. -/
theorem test_rxStart_camera_refused :
    (nextOf (exec (.rxStart true true false none 1280 720 0x00640000 [0x31, 0x30]) State.reset)).map
        (fun s => (s.rx, s.response, s.events))
      = some ({ RxState.reset with drawW := 1280, drawH := 720 }, some ⟨.cameraAcquisitionFailure, .nothing⟩,
          [.camAcquire ⟨none, 640, 480, 30, 15⟩]) := by decide +kernel

/-- B14, V9: granted with the width falling back alone; a prior run is released first (B16). -/
theorem test_rxStart_granted :
    (nextOf (exec (.rxStart true true true (some [0x63]) 0 720 0x00640000 [0x31, 0x30]) decoding)).map
        (fun s => (s.rx.drawW, s.rx.drawH, s.rx.threshold, s.rx.stream, s.events))
      = some (640, 720, 100, [], [.camRelease, .camAcquire ⟨some [0x63], 640, 480, 30, 15⟩]) := by
  decide +kernel

/-- B9: 26.666 ms does not close the period, 26.667 ms does. -/
theorem test_rxFrame_close_point :
    (nextOf (exec (.rxFrame 26666 true true false (grey 200)) sampling)).map (fun s => (s.rx.win, s.rx.stream))
      = some ([200, 200], []) ∧
    (nextOf (exec (.rxFrame 26667 true true false (grey 200)) sampling)).map
        (fun s => (s.rx.win, s.rx.winAnchor, s.rx.stream, s.rx.cls)) = some ([], 26667 / 1000, [true], .lastWasOne) := by
  decide +kernel

/-- Last row of B16: a match inside a frame. -/
theorem test_rxFrame_match :
    (nextOf (exec (.rxFrame 60000 true true false (grey 50)) decoding)).map
        (fun s => (s.rx.active, s.rx.stream, s.rx.matchResult, s.events))
      = some (false, [], .none,
          [.matched ⟨true, 50, some false, [0x31, 0x30], 0, .granted, 640, 480⟩, .camRelease]) := by decide +kernel

/-- B15: the brightness and the last bit are kept, the camera is released. -/
theorem test_rxStop :
    (nextOf (exec .rxStop decoding)).map (fun s => (s.rx.stream, s.rx.cls, s.rx.lastBit, s.rx.bright, s.events))
      = some ([], .unknown, some true, 200, [.camRelease]) := by decide +kernel

/-- B15: the window, the anchor and the activity stay. -/
theorem test_rxReset :
    (nextOf (exec .rxReset sampling)).map (fun s => (s.rx.active, s.rx.win, s.rx.winAnchor, s.events))
      = some (true, [200], 0, []) ∧
    (nextOf (exec .rxReset decoding)).map (fun s => (s.rx.stream, s.rx.cls, s.rx.active)) = some ([], .unknown, true) := by
  decide +kernel

/-- B15: the record after reset. -/
theorem test_rxStatus :
    (nextOf (exec .rxStatus State.reset)).map State.response
      = some (some ⟨.ok, .rxStatus ⟨false, 0, none, [], 0, .none, 0, 0⟩⟩) ∧
    (nextOf (exec .rxStatus decoding)).map State.response
      = some (some ⟨.ok, .rxStatus ⟨true, 200, some true, [0x31], 0, .none, 640, 480⟩⟩) := by decide +kernel

/-! ## The internal operations -/

/-- B8: a pixel, and a frame of 25 pixels of which three are sampled. -/
theorem test_luma :
    luma ⟨10, 20, 30⟩ = 4649 / 250 ∧
    frameBrightness (⟨255, 255, 255⟩ :: List.replicate 9 ⟨1, 1, 1⟩ ++ ⟨0, 0, 0⟩ :: List.replicate 9 ⟨1, 1, 1⟩
      ++ ⟨10, 20, 30⟩ :: List.replicate 4 ⟨1, 1, 1⟩) = 68399 / 750 := by decide +kernel

/-- B13: the earlier "11" lies outside the trailing window. -/
theorem test_match_window :
    patternFound [0x31, 0x31] [true, true, false, false, false, false, false] = false ∧
    patternFound [0x31, 0x31, 0x30, 0x30] [true, false, false, true, true, false, false] = true := by decide +kernel

/-- B4: a target of 59.5 frames per second, and 11 ms ticks with a target of 100. -/
theorem test_bit_duration :
    bitDuration (effectiveRate (125 / 2) (119 / 2)) = 2000 / 119 ∧
    bitDuration (effectiveRate (measuredRate Config.default 660) 100) = 33 := by decide +kernel

/-- Rules R82 and R83: defaults, a pseudo-instruction, and a number that is no multiple of 1/65536. -/
theorem test_assemble :
    assemble "TX.START now=0 code=\"01\"" = some [.txStart 0 0x003C0000 [0x30, 0x31]] ∧
    assemble "TX.TICKS 2, 16000, 16000" = some [.txTick 16000, .txTick 32000] ∧
    assemble "TX.TICKS 6 0, 1, 2" = none ∧
    assemble "TX.START now=0 code=\"1\" fps=0.1" = none := by decide +kernel

/-- U5: under the corrupted reading a failed frame takes a sample, here 300 brought to 255, and RX_BRIGHT stays. -/
theorem test_corrupted_sample :
    (nextOf (exec (.rxFrame 10000 true true true [])
        { sampling with config := { Config.default with failedFrames := [(10000, 300)] } })).map
        (fun s => (s.rx.win, s.rx.bright, s.events))
      = some ([200, 255], 200, [.log .runtimeCaptureError 10000]) := by decide +kernel

/-- U2: the device's CAL_ROUND is applied before the clamp. -/
theorem test_calibration_rounds :
    (nextOf (exec (.txTick 960000) { calib 59 with config := chosen })).map (fun s => s.tx.measFps) = some 62 ∧
    roundBy (.nearest .up) (125 / 2) = 63 ∧ roundBy (.nearest .down) (125 / 2) = 62 ∧
    roundBy .floor (1000 / 11) = 90 ∧ roundBy (.nearest .even) (1000 / 11) = 91 := by
  decide +kernel

/-- D19: a window of one sample keeps none when another joins. -/
theorem test_window_of_one : windowKeeps chosen [200] 50 = [] :=
  List.length_eq_zero_iff.mp (Nat.le_zero.mp (windowKeeps_length (n := 1) rfl [200] 50))

/-- R226: a calibration tick below the one before it, and a frame below the processed one before it but after the
window's anchor. -/
theorem test_time_backwards :
    refusalOf (exec (.txTick 15000) { calib 1 with txTime := 16 }) = some .timeBackwards ∧
    refusalOf (exec (.rxFrame 9000 true true false (grey 1)) { sampling with rxTime := 10 }) = some .timeBackwards := by
  decide +kernel

/-! ## Witnesses: states and operands that meet each statement's hypotheses together -/

theorem reset_txInv : TxInv TxState.reset where
  activeIff := by decide
  idle := fun _ => rfl
  codeBound := by decide
  codeNonempty := by decide
  calibrating := by decide
  running := by decide

theorem calib_txInv : TxInv (calib 59).tx where
  activeIff := by decide
  idle := by decide
  codeBound := by decide
  codeNonempty := by decide
  calibrating := by decide +kernel
  running := by decide

theorem looping_txInv : TxInv looping.tx where
  activeIff := by decide
  idle := by decide
  codeBound := by decide
  codeNonempty := by decide
  calibrating := by decide
  running := by decide +kernel

theorem reset_rxInv : RxInv RxState.reset where
  streamBound := by decide
  inactive := by decide
  notGranted := rfl
  expectedBound := by decide
  brightRange := by decide +kernel
  winRange := by decide +kernel
  firstWindow := by decide
  unknownIff := by decide
  lastDecision := by decide
  notYetFound := by decide

theorem decoding_rxInv : RxInv decoding.rx where
  streamBound := by decide
  inactive := by decide
  notGranted := rfl
  expectedBound := by decide
  brightRange := by decide +kernel
  winRange := by decide +kernel
  firstWindow := by decide
  unknownIff := by decide
  lastDecision := by decide
  notYetFound := by decide +kernel

/-- Both instances running, with the given bytes at the port. -/
def bothRunning (port : List Byte) : State := { looping with rx := decoding.rx, rxTime := decoding.rxTime, port := port }

theorem bothRunning_inv (port : List Byte) : StateInv (bothRunning port) where
  tx := looping_txInv
  rx := decoding_rxInv
  calTime := fun h => absurd (show Phase.run = .cal from h) (by decide)
  runTime := fun _ => ⟨le_refl (960 : Rat), le_refl (960 : Rat)⟩
  frameTime := fun _ => ⟨le_refl (30 : Rat), (by decide +kernel : (0 : Rat) ≤ 30)⟩

/-- At the bound of each length field. -/
theorem witness_DecodeOfEncodeIsTheCommand (now : BitVec 64) (fps : BitVec 32) :
    (Instr.txStart now fps (List.replicate 65535 0x30)).wf = true ∧
    (Instr.rxStart true true true (some (List.replicate 255 0x61)) 0 0 0 []).wf = true ∧
    (Instr.rxFrame 0 true true false [⟨1, 2, 3⟩]).wf = true := by
  rw [wf_txStart_iff, wf_rxStart_iff, wf_rxFrame_iff, Option.getD_some, List.length_replicate, List.length_replicate]
  decide

theorem witness_DecodedPacketIsTheEncoding :
    decode [0x12, 0x30, 0x75, 0, 0, 0, 0, 0, 0, 0x02, 1, 0, 0, 0, 7, 8, 9, 0x03]
      = .command (.rxFrame 30000 false true false [⟨7, 8, 9⟩]) [0x03] := by decide

/-- The ends of the reserved ranges. -/
theorem witness_ReservedOpcodeIsRefused :
    (∀ b ∈ ([0x00, 0x06, 0x10, 0x16, 0xFF] : List Byte), opcodeOf b = none) ∧
    (bothRunning [0xFF, 0x03]).port = 0xFF :: [0x03] := by decide

/-- The lowest and the highest reserved flag bit, and an identifier length of 1 without its flag. -/
theorem witness_MalformedPacketIsRejectedByName :
    (∀ f ∈ ([0x17, 0x80] : List Byte),
      let bs : List Byte := [0x11, f, 0, 0, 0, 0, 0, 0, 0x80, 0, 0, 0, 0]
      bs.head? = some 0x11 ∧ packetLength .fmtD bs ≤ bs.length ∧ (byteAt bs 1).extractLsb' 4 4 ≠ 0) ∧
    (
      let bs : List Byte := [0x11, 0x07, 0, 0, 0, 0, 0, 0, 0x80, 0, 1, 0, 0x30, 1, 0x41]
      bs.head? = some 0x11 ∧ packetLength .fmtD bs ≤ bs.length ∧ (byteAt bs 1).extractLsb' 4 4 = 0 ∧
        (byteAt bs 1).getLsbD 3 = false ∧ byteAt bs (12 + fieldNat bs 10 2) ≠ 0) ∧
    (∀ f ∈ ([0x0B, 0x80] : List Byte),
      let bs : List Byte := [0x12, 0, 0, 0, 0, 0, 0, 0, 0, f, 0, 0, 0, 0]
      bs.head? = some 0x12 ∧ packetLength .fmtF bs ≤ bs.length ∧ (byteAt bs 9).extractLsb' 3 5 ≠ 0) := by decide

/-- A packet that already shows a reserved flag bit, one byte alone, and all but the last byte; before and after the end
of the input. -/
theorem witness_UnfinishedPacketWaitsOrIsRefused :
    (∀ p ∈ ([[0x11, 0x17], [0x12], [0x02, 0, 0, 0, 0, 0, 0, 0]] : List (List Byte)),
      (bothRunning p).port.head?.any (fun b => (opcodeOf b).any (fun o =>
        decide ((bothRunning p).port.length < packetLength (opcodeFormat o) (bothRunning p).port))) = true) ∧
    (bothRunning []).inputEnded = false ∧ { bothRunning [] with inputEnded := true }.inputEnded = true ∧
    (
      let i : Instr := .rxFrame 5 true true false [⟨1, 2, 3⟩]
      i.wf = true ∧ ∀ n ∈ [1, 16], 0 < n ∧ n < (encode i).length) := by
  decide +kernel

theorem witness_StepRunsTheDecodedCommand :
    decode (bothRunning [0x14, 0x05]).port = .command .rxReset [0x05] := by decide

theorem witness_StepRefusesAPacketThatIsNoCommand :
    decode (bothRunning [0x12, 0, 0, 0, 0, 0, 0, 0, 0, 0x08, 0, 0, 0, 0, 3]).port = .reject .reservedFlag [3] ∧
    decode (bothRunning [0x21]).port = .reject .reservedOpcode [] := by decide

theorem witness_StepWaitsWithoutInput : (bothRunning []).port = [] := rfl

theorem witness_PacketsExecuteInArrivalOrder :
    let is : List Instr := [.txStart 0 0x003C0000 [0x31], .txTick 16000, .txStop]
    (∀ i ∈ is, i.wf = true) ∧ (bothRunning (is.flatMap encode)).port = is.flatMap encode := by decide +kernel

theorem witness_CommandsLeaveThePortAndAnswer :
    ∃ s', exec .rxStop (bothRunning [7]) = .next s' ∧ s'.response.isSome = true := next_of (by decide +kernel)

/-- The empty code, and the symbols next to '0' and '1'. -/
theorem witness_TxStartRefusesANonBinaryCode :
    ∀ code ∈ ([[], [0x2F], [0x31, 0x32]] : List (List Symbol)), code = [] ∨ ∃ x ∈ code, x ≠ 0x30 ∧ x ≠ 0x31 := by
  decide

/-- On an idle, a calibrating and a looping instance. -/
theorem witness_TxStartLoadsTheCodeAndCalibrates :
    ([0x30, 0x31] : List Symbol) ≠ [] ∧ (∀ x ∈ ([0x30, 0x31] : List Symbol), x = 0x30 ∨ x = 0x31) ∧
    (∀ s ∈ [State.reset, calib 59, looping],
      (nextOf (exec (.txStart 7 0 [0x30, 0x31]) s)).isSome = true) ∧
    TxInv State.reset.tx ∧ TxInv (calib 59).tx ∧ TxInv looping.tx :=
  ⟨by decide, by decide, by decide +kernel, reset_txInv, calib_txInv, looping_txInv⟩

theorem witness_TxTickWithoutARunDoesNothing : State.reset.tx.active = false ∧ State.reset.tx.phase = .idle :=
  ⟨rfl, rfl⟩

/-- The first and the 59th callback, at the start's own time and later. -/
theorem witness_CalibrationTickOnlyCounts :
    ∀ n ∈ [0, 58], (calib n).tx.active = true ∧ (calib n).tx.phase = .cal ∧ (calib n).tx.calCount + 1 ≠ 60 ∧
      ∀ us ∈ [0, 16000], (calib n).txTime ≤ ((BitVec.ofNat 64 us).toNat : Rat) / 1000 ∧
        (calib n).tx.calT0 ≤ ((BitVec.ofNat 64 us).toNat : Rat) / 1000 := by decide +kernel

/-- Time has passed, and none has. -/
theorem witness_SixtiethTickBeginsTheLoop :
    (calib 59).tx.active = true ∧ (calib 59).tx.phase = .cal ∧ (calib 59).tx.calCount = 59 ∧
    (calib 59).tx.code[0]? = some false ∧
    (∀ us ∈ [0, 960000], (calib 59).txTime ≤ ((BitVec.ofNat 64 us).toNat : Rat) / 1000 ∧
      (calib 59).tx.calT0 ≤ ((BitVec.ofNat 64 us).toNat : Rat) / 1000) ∧
    (nextOf (exec (.txTick 960000) (calib 59))).map (fun s => (s.tx.measFps, s.tx.effRate)) = some (125 / 2, 60) ∧
    (nextOf (exec (.txTick 0) (calib 59))).map (fun s => (s.tx.measFps, s.tx.effRate)) = some (120, 60) := by
  decide +kernel

/-- The ends of the range, no time passed, a rate half way between two whole ones, and a rate beside a list. -/
theorem witness_CalibratedRateRange :
    (0 : Rat) < 960 ∧ (∀ rate ∈ [(30 : Rat), 125 / 2, 120], 30 ≤ rate ∧ rate ≤ 120) ∧ (0 : Rat) ≤ 0 ∧
    (125 / 2 : Rat) - (⌊(125 / 2 : Rat)⌋ : Rat) = 1 / 2 ∧ (61 : Rat) ∉ [(125 / 2 : Rat)] := by decide +kernel

/-- A rate in each band and at each band's lower end (B4). -/
theorem witness_BitDurationFollowsTheEffectiveRate :
    effectiveRate (125 / 2) 0 = 30 ∧ effectiveRate (125 / 2) (119 / 2) = 119 / 2 ∧ effectiveRate (125 / 2) 60 = 60 ∧
    effectiveRate (1000 / 11) 90 = 90 ∧ effectiveRate 120 (239 / 2) = 239 / 2 ∧ effectiveRate 120 200 = 120 := by
  decide +kernel

/-- At the epoch, and when the counter's second is over. -/
theorem witness_RunTickShowsTheBitOfItsTime :
    looping.tx.active = true ∧ looping.tx.phase = .run ∧ looping.tx.code ≠ [] ∧ 0 < looping.tx.bitDur ∧
    ∀ us ∈ [960000, 993334, 1960000],
      looping.txTime ≤ ((BitVec.ofNat 64 us).toNat : Rat) / 1000 ∧
        looping.tx.epoch ≤ ((BitVec.ofNat 64 us).toNat : Rat) / 1000 ∧
        looping.tx.fpsT0 ≤ ((BitVec.ofNat 64 us).toNat : Rat) / 1000 := by decide +kernel

/-- In CAL before the tick before and before the start; in RUN just before the epoch, before a later tick, and at the
latest tick but before a later TX_FPS_T0. -/
theorem witness_RunTickBeforeItsRunIsRefused :
    (
      let s := { calib 1 with txTime := 16 }
      s.tx.active = true ∧ s.tx.phase = .cal ∧ ((15999 : BitVec 64).toNat : Rat) / 1000 < s.txTime) ∧
    (
      let s := { calib 0 with tx := { (calib 0).tx with calT0 := 5 } }
      s.tx.active = true ∧ s.tx.phase = .cal ∧ ((4999 : BitVec 64).toNat : Rat) / 1000 < s.tx.calT0) ∧
    (looping.tx.active = true ∧ looping.tx.phase = .run ∧ ((959999 : BitVec 64).toNat : Rat) / 1000 < looping.tx.epoch) ∧
    (
      let s := { looping with txTime := 980 }
      ¬ ((979999 : BitVec 64).toNat : Rat) / 1000 < s.tx.epoch ∧ ((979999 : BitVec 64).toNat : Rat) / 1000 < s.txTime) ∧
    (
      let s := { looping with tx := { looping.tx with fpsT0 := 1968 } }
      s.tx.active = true ∧ s.tx.phase = .run ∧ ¬ ((960000 : BitVec 64).toNat : Rat) / 1000 < s.tx.epoch ∧
        ¬ ((960000 : BitVec 64).toNat : Rat) / 1000 < s.txTime ∧
        ((960000 : BitVec 64).toNat : Rat) / 1000 < s.tx.fpsT0) := by decide +kernel

/-- B5: the boundary itself belongs to the new bit, and the late tick. -/
theorem witness_BitIndexIsPeriodic :
    (0 : Rat) < 20 ∧ ((1 : Nat) : Rat) * 20 ≤ 20 ∧ (20 : Rat) < ((1 + 1 : Nat) : Rat) * 20 ∧ bitIndexAt 20 20 4 = 1 ∧
    ((17 : Nat) : Rat) * 20 ≤ 350 ∧ (350 : Rat) < ((17 + 1 : Nat) : Rat) * 20 ∧ bitIndexAt 350 20 4 = 1 := by
  decide +kernel

theorem witness_TxStopIsIdempotent :
    (∃ s', exec .txStop looping = .next s' ∧ s'.tx = TxState.reset) ∧
    TxInv State.reset.tx ∧ State.reset.tx.active = false :=
  ⟨next_of (by decide +kernel), reset_txInv, rfl⟩

theorem witness_TxColorReadsTheVisibleBit : TxInv (calib 59).tx ∧ (calib 59).tx.phase ≠ .run :=
  ⟨calib_txInv, by decide⟩

/-- The four transitions that change the phase. -/
theorem witness_TxPhaseMovesOnlyByItsTransitions :
    (TxInv State.reset.tx ∧ ∃ s', exec (.txStart 0 0 [0x31]) State.reset = .next s' ∧ s'.tx.phase = .cal) ∧
    (TxInv looping.tx ∧ ∃ s', exec (.txStart 0 0 [0x31]) looping = .next s' ∧ s'.tx.phase = .cal) ∧
    (TxInv (calib 59).tx ∧ ∃ s', exec (.txTick 960000) (calib 59) = .next s' ∧ s'.tx.phase = .run) ∧
    (TxInv looping.tx ∧ ∃ s', exec .txStop looping = .next s' ∧ s'.tx.phase = .idle) :=
  ⟨⟨reset_txInv, next_of (by decide +kernel)⟩, ⟨looping_txInv, next_of (by decide +kernel)⟩,
    ⟨calib_txInv, next_of (by decide +kernel)⟩, ⟨looping_txInv, next_of (by decide +kernel)⟩⟩

theorem witness_TxUpdateMarksExactlyTheIndexChanges :
    (∃ s', exec (.txTick 960000) (calib 59) = .next s' ∧ Event.txUpdate (some false) ∈ s'.events ∧ s'.tx.phase = .run) ∧
    (∃ s', exec (.txTick 993334) looping = .next s' ∧ Event.txUpdate (some true) ∈ s'.events ∧ s'.tx.bitIndex ≠ 0) :=
  ⟨next_of (by decide +kernel), next_of (by decide +kernel)⟩

/-- Each surface missing alone. -/
theorem witness_RxStartNeedsItsCaptureSurface :
    (nextOf (exec (.rxStart false true true none 0 0 0 []) decoding)).isSome = true ∧
    (nextOf (exec (.rxStart true false true none 0 0 0 []) decoding)).isSome = true := by decide +kernel

/-- The default, and under the check an empty and a binary code. -/
theorem witness_RxStartRunsItsSequence :
    decoding.config.rxValidateCode = false ∧
    (
      let s := { decoding with config := chosen }
      s.config.rxValidateCode = true ∧ isBinaryCode [0x31, 0x30] = true ∧
        (nextOf (exec (.rxStart true true true none 0 0 0 []) s)).map (fun s => (s.rx.active, s.rx.expected))
          = some (true, [])) := by decide +kernel

theorem witness_RxStartUnderCodeValidation :
    let s := { decoding with config := chosen }
    s.config.rxValidateCode = true ∧ (∃ x ∈ ([0x31, 0x32] : List Symbol), x ≠ 0x30 ∧ x ≠ 0x31) ∧
    (∀ x ∈ ([0x31, 0x30] : List Symbol), x = 0x30 ∨ x = 0x31) ∧ (∀ x ∈ ([] : List Symbol), x = 0x30 ∨ x = 0x31) ∧
    (nextOf (exec (.rxStart true true true none 0 0 0 [0x31, 0x32]) s)).map (fun s => (s.rx, s.response))
      = some (decoding.rx, some ⟨.invalidCodeFormat, .nothing⟩) := by decide +kernel

theorem witness_RxStopIsIdempotent : ∃ s', exec .rxStop decoding = .next s' ∧ s'.events = [.camRelease] :=
  next_of (by decide +kernel)

theorem witness_RxStatusReadsTheObservableState : RxInv decoding.rx := decoding_rxInv

/-- Into a run, and out of one by a stop, by a refused camera and by a match. -/
theorem witness_RxActivityMovesOnlyByItsTransitions :
    (∃ s', exec (.rxStart true true true none 0 0 0 []) State.reset = .next s' ∧ s'.rx.active = true) ∧
    (∃ s', exec .rxStop decoding = .next s' ∧ s'.rx.active = false) ∧
    (∃ s', exec (.rxStart true true false none 0 0 0 []) decoding = .next s' ∧ s'.rx.active = false) ∧
    (∃ s', exec (.rxFrame 60000 true true false (grey 50)) decoding = .next s' ∧ s'.rx.active = false) :=
  ⟨next_of (by decide +kernel), next_of (by decide +kernel), next_of (by decide +kernel), next_of (by decide +kernel)⟩

theorem witness_FrameWithoutARunDoesNothing : State.reset.rx.active = false := rfl

/-- Each gate alone, and with a failure behind it; at the latest processed frame's own time, and on the first frame of a
run. -/
theorem witness_UnreadyFrameIsSkippedSilently :
    sampling.rx.active = true ∧ sampling.rx.first = false ∧ sampling.rxTime ≤ ((0 : BitVec 64).toNat : Rat) / 1000 ∧
    sampling.rx.winAnchor ≤ ((0 : BitVec 64).toNat : Rat) / 1000 ∧ (started []).rx.first = true ∧
    (nextOf (exec (.rxFrame 0 false true true []) sampling)).map State.events = some [] ∧
    (nextOf (exec (.rxFrame 0 true false false (grey 9)) sampling)).map State.events = some [] := by decide +kernel

/-- A failing frame and one without pixels, on the default device and on one that lists another time; and a listed
time. -/
theorem witness_FailedFrameIsOnlyLogged :
    sampling.rx.active = true ∧ sampling.rxTime ≤ ((40000 : BitVec 64).toNat : Rat) / 1000 ∧
    sampling.rx.winAnchor ≤ ((40000 : BitVec 64).toNat : Rat) / 1000 ∧
    sampling.config.failedFrames = [] ∧ failedSample chosen 39999 = none ∧ failedSample chosen 40000 = some 255 ∧
    (nextOf (exec (.rxFrame 40000 true true true (grey 9)) sampling)).map State.rx = some sampling.rx ∧
    (nextOf (exec (.rxFrame 40000 true true false []) sampling)).map State.rx = some sampling.rx := by decide +kernel

/-- A frame with pixels takes its brightness, and a failing one the device lists takes the listed sample. -/
theorem takes_pixels (s : State) (ts : BitVec 64) (v : Byte) :
    FrameTakes s ts false (grey v) (frameBrightness (grey v)) (frameBrightness (grey v)) [] :=
  .inl ⟨rfl, by simp [grey], rfl, rfl, rfl⟩

theorem takes_listed (s : State) (h : s.config = chosen) :
    FrameTakes s 40000 true [] 255 s.rx.bright [.log .runtimeCaptureError 40000] :=
  .inr ⟨.inl rfl, by rw [h]; decide +kernel, rfl, rfl⟩

/-- The first frame of a run, the last microsecond before the close point, and a corrupted frame. -/
theorem witness_FrameBeforeTheClosePointAccumulates :
    ((started []).rx.active = true ∧ (started []).rx.first = true ∧
      FrameTakes (started []) 7 false (grey 200) (frameBrightness (grey 200)) (frameBrightness (grey 200)) []) ∧
    (sampling.rx.active = true ∧ sampling.rx.first = false ∧
      FrameTakes sampling 26666 false (grey 200) (frameBrightness (grey 200)) (frameBrightness (grey 200)) [] ∧
      sampling.rxTime ≤ ((26666 : BitVec 64).toNat : Rat) / 1000 ∧
      sampling.rx.winAnchor ≤ ((26666 : BitVec 64).toNat : Rat) / 1000 ∧
      ((26666 : BitVec 64).toNat : Rat) / 1000 - sampling.rx.winAnchor < 80 / 3) ∧
    (FrameTakes { decoding with config := chosen } 40000 true [] 255 decoding.rx.bright [.log .runtimeCaptureError 40000] ∧
      decoding.rxTime ≤ ((40000 : BitVec 64).toNat : Rat) / 1000 ∧
      decoding.rx.winAnchor ≤ ((40000 : BitVec 64).toNat : Rat) / 1000 ∧
      ((40000 : BitVec 64).toNat : Rat) / 1000 - decoding.rx.winAnchor < 80 / 3) :=
  ⟨⟨rfl, rfl, takes_pixels ..⟩,
    ⟨rfl, rfl, takes_pixels .., by decide +kernel, by decide +kernel, by decide +kernel⟩,
    ⟨takes_listed _ rfl, by decide +kernel, by decide +kernel, by decide +kernel⟩⟩

/-- Exactly at the close point with matching off, and with an expected code that is not found. -/
theorem witness_FrameAtTheClosePointDecidesABit :
    (
      let s := { sampling with rx := { sampling.rx with winAnchor := 10 / 3 } }
      s.rx.active = true ∧ s.rx.first = false ∧ s.rxTime ≤ ((30000 : BitVec 64).toNat : Rat) / 1000 ∧
        ((30000 : BitVec 64).toNat : Rat) / 1000 - s.rx.winAnchor = 80 / 3 ∧ s.rx.expected = []) ∧
    (decoding.rx.active = true ∧ decoding.rx.first = false ∧
      decoding.rxTime ≤ ((60000 : BitVec 64).toNat : Rat) / 1000 ∧
      80 / 3 ≤ ((60000 : BitVec 64).toNat : Rat) / 1000 - decoding.rx.winAnchor ∧
      (
        let win := windowKeeps decoding.config decoding.rx.win (frameBrightness (grey 200)) ++ [frameBrightness (grey 200)]
        classifyBit decoding.rx.threshold decoding.rx.cls (win.sum / (win.length : Rat)) = true) ∧
      patternFound decoding.rx.expected (appendBit true decoding.rx.stream) = false) := by decide +kernel

theorem witness_MatchIsReportedAndStopsTheRun :
    decoding.rx.active = true ∧ decoding.rx.first = false ∧
    decoding.rxTime ≤ ((60000 : BitVec 64).toNat : Rat) / 1000 ∧
    80 / 3 ≤ ((60000 : BitVec 64).toNat : Rat) / 1000 - decoding.rx.winAnchor ∧ decoding.rx.expected ≠ [] ∧
    (
      let win := windowKeeps decoding.config decoding.rx.win (frameBrightness (grey 50)) ++ [frameBrightness (grey 50)]
      classifyBit decoding.rx.threshold decoding.rx.cls (win.sum / (win.length : Rat)) = false) ∧
    patternFound decoding.rx.expected (appendBit false decoding.rx.stream) = true := by decide +kernel

/-- Just before the anchor, and at the anchor but before a later processed frame. -/
theorem witness_FrameBeforeItsWindowIsRefused :
    decoding.rx.active = true ∧ decoding.rx.first = false ∧
    ((29999 : BitVec 64).toNat : Rat) / 1000 < decoding.rx.winAnchor ∧
    (
      let s := { sampling with rxTime := 10 }
      s.rx.active = true ∧ s.rx.first = false ∧ ((9999 : BitVec 64).toNat : Rat) / 1000 < s.rxTime ∧
        ¬ ((9999 : BitVec 64).toNat : Rat) / 1000 < s.rx.winAnchor) := by decide +kernel

theorem witness_MatchEventEndsItsRun :
    ∃ s', exec (.rxFrame 60000 true true false (grey 50)) decoding = .next s' ∧
      Event.matched ⟨true, 50, some false, [0x31, 0x30], 0, .granted, 640, 480⟩ ∈ s'.events :=
  next_of (by decide +kernel)

theorem witness_DecoderBitDurationIsConstant :
    ∀ e ∈ [(30 : Rat), 50, 60, 90, 119, 120], 30 ≤ e ∧ e ≤ 120 := by decide +kernel

/-- Both ends of the dead band. -/
theorem witness_DeadBandNeverFlipsTheBit :
    ∀ m ∈ [(108 : Rat), 128, 148], (128 : Rat) - 20 ≤ m ∧ m ≤ 128 + 20 := by decide +kernel

/-- One bit below the capacity, and at it. -/
theorem witness_AppendEvictsOnlyTheOldestBit :
    (List.replicate 99 false).length ≤ 100 ∧ (true :: List.replicate 99 false).length ≤ 100 ∧
    appendBit true (true :: List.replicate 99 false) = List.replicate 99 false ++ [true] := by decide +kernel

/-- A symbol that is not binary, and a code one symbol longer than the capacity. -/
theorem witness_SearchFindsExactlyASubstringOfTheWindow :
    (∃ x ∈ ([0x31, 0x78] : List Symbol), x ≠ 0x30 ∧ x ≠ 0x31) ∧
    (List.replicate 100 false).length ≤ 100 ∧ 100 < (List.replicate 101 symZero).length := by decide

theorem witness_MatchEndsAtTheNewBit :
    RxInv decoding.rx ∧ ∃ s', exec (.rxFrame 60000 true true false (grey 50)) decoding = .next s' ∧
      Event.matched ⟨true, 50, some false, [0x31, 0x30], 0, .granted, 640, 480⟩ ∈ s'.events :=
  ⟨decoding_rxInv, next_of (by decide +kernel)⟩

/-- A step of each instance from a state in which both run. -/
theorem witness_StepKeepsTheInvariant :
    (StateInv (bothRunning (encode (.txTick 993334))) ∧
      ∃ s', step (bothRunning (encode (.txTick 993334))) = .next s' ∧ s'.tx.bitIndex = 1) ∧
    (StateInv (bothRunning (encode (.rxFrame 60000 true true false (grey 200)))) ∧
      ∃ s', step (bothRunning (encode (.rxFrame 60000 true true false (grey 200)))) = .next s' ∧
        s'.rx.stream = [true, true]) :=
  ⟨⟨bothRunning_inv _, next_of (by decide +kernel)⟩, ⟨bothRunning_inv _, next_of (by decide +kernel)⟩⟩

theorem witness_ReachableStatesMeetTheSixLines :
    ∃ s, Reachable s ∧ s.tx.active = true ∧ s.tx.phase = .cal := by
  obtain ⟨s, hs, h⟩ : ∃ s, step { State.reset with port := [] ++ encode (.txStart 0 0 [0x31]) } = .next s ∧
      (s.tx.active = true ∧ s.tx.phase = .cal) := next_of (by decide +kernel)
  exact ⟨s, .step (.arrive _ (.reset Config.default) rfl) hs, h⟩

/-- A state that goes on, and both refusals. -/
theorem witness_GoodStatesStopOnlyForTime :
    StateInv (bothRunning []) ∧
    (StateInv (bothRunning (encode (.txTick 959999))) ∧
      step (bothRunning (encode (.txTick 959999))) = .refused .timeBackwards) ∧
    (StateInv (bothRunning (encode (.rxFrame 29999 true true false (grey 0)))) ∧
      step (bothRunning (encode (.rxFrame 29999 true true false (grey 0)))) = .refused .timeBackwards) :=
  ⟨bothRunning_inv _, ⟨bothRunning_inv _, refused_of (by decide +kernel)⟩,
    ⟨bothRunning_inv _, refused_of (by decide +kernel)⟩⟩

theorem witness_InstancesShareNothing :
    (isTx (.txTick 993334) = true ∧ looping.tx = (bothRunning []).tx ∧ looping.txTime = (bothRunning []).txTime ∧
      looping.config = (bothRunning []).config ∧
      ∃ s', exec (.txTick 993334) (bothRunning []) = .next s' ∧ s'.tx.bitIndex = 1) ∧
    (isTx .rxReset = false ∧ decoding.rx = (bothRunning []).rx ∧ decoding.rxTime = (bothRunning []).rxTime ∧
      decoding.config = (bothRunning []).config ∧
      ∃ s', exec .rxReset (bothRunning []) = .next s' ∧ s'.rx.stream = []) :=
  ⟨⟨rfl, rfl, rfl, rfl, next_of (by decide +kernel)⟩, ⟨rfl, rfl, rfl, rfl, next_of (by decide +kernel)⟩⟩

/-- Each fault that a command can answer. -/
theorem witness_FaultsLeaveTheRegistersAlone :
    (∃ s', exec (.txStart 0 0 [0x32]) looping = .next s' ∧ s'.response = some ⟨.invalidCodeFormat, .nothing⟩) ∧
    (∃ s', exec (.rxStart true false true none 0 0 0 []) decoding = .next s' ∧
      s'.response = some ⟨.missingCaptureSurface, .nothing⟩) ∧
    (∃ s', exec (.rxStart true true false none 0 0 0 []) decoding = .next s' ∧
      s'.response = some ⟨.cameraAcquisitionFailure, .nothing⟩) ∧
    (∃ s', exec (.rxStart true true true none 0 0 0 [0x32]) { decoding with config := chosen } = .next s' ∧
      s'.response = some ⟨.invalidCodeFormat, .nothing⟩) :=
  ⟨next_of (by decide +kernel), next_of (by decide +kernel), next_of (by decide +kernel), next_of (by decide +kernel)⟩

/-- A line for each clause: the last tick that fits 64 bits and the first that does not, a grey frame, a skipped one,
operands left out, and a number between two multiples of 1/65536. -/
theorem witness_AssembledCommandsFitTheirPackets :
    assemble "RX.GRAY 0, 150" = some [.rxFrame 0 true true false [⟨150, 150, 150⟩]] ∧
    (asmNat "2".toList = some 2 ∧ asmNat "18446744073709551614".toList = some (2 ^ 64 - 2) ∧
      (∀ k, k < 2 → 2 ^ 64 - 2 + k * 1 < 2 ^ 64) ∧ 1 < 2 ∧ 2 ^ 64 ≤ 2 ^ 64 - 2 + 1 * 2) ∧
    (asmMicros "7".toList = some 7 ∧ asmChannel "255".toList = some 255 ∧ asmChannel "256".toList = none) ∧
    (asmLookup "fps" [("now".toList, "5".toList)] = none ∧
      (asmTxStart [("now".toList, "5".toList), ("code".toList, "\"1\"".toList)]).isSome = true) ∧
    (asmRxStart [("video".toList, "1".toList), ("draw".toList, "1".toList), ("grant".toList, "1".toList)]).isSome = true ∧
    (asmRxFrame [("ts".toList, "0".toList), ("px".toList, "[]".toList)]).isSome = true ∧
    asmDecimal "0.1".toList = some (1 / 10) ∧ q16Field (1 / 10) = none := by decide +kernel

end Sys2Proof.Tests
end

/-! ## The calibrated rate (rules R8, R97) -/

namespace Sys2Proof.Machine

/-- A clamped value lies between the bounds (rule R9). -/
theorem clamp_mem_Icc {lo hi : Rat} (h : lo ≤ hi) (v : Rat) : clamp v lo hi ∈ Set.Icc lo hi :=
  ⟨le_max_left .., max_le h (min_le_left ..)⟩

/-- Clamping leaves a value between the bounds as it is (rule R9). -/
theorem clamp_eq_self {v lo hi : Rat} (hlo : lo ≤ v) (hhi : v ≤ hi) : clamp v lo hi = v := by
  rw [clamp, min_eq_right hhi, max_eq_right hlo]

theorem measuredRate_of_pos (c : Config) {elapsed : Rat} (h : 0 < elapsed) :
    measuredRate c elapsed = clamp (roundBy c.calRound (60 * 1000 / elapsed)) 30 120 := by
  simp [measuredRate, roundRate_eq, h]

theorem measuredRate_of_nonpos (c : Config) {elapsed : Rat} (h : elapsed ≤ 0) : measuredRate c elapsed = 120 := by
  simp [measuredRate, h.not_gt]

/-- Rule R97's clamp and its value for no elapsed time both lie in RATE_MIN to RATE_MAX. -/
theorem measuredRate_mem_Icc (c : Config) (elapsed : Rat) : measuredRate c elapsed ∈ Set.Icc 30 120 := by
  rcases lt_or_ge 0 elapsed with h | h
  · rw [measuredRate_of_pos c h]
    exact clamp_mem_Icc (by norm_num) _
  · rw [measuredRate_of_nonpos c h]
    norm_num

/-- A rounding that answers `rate` at the raw rate of this elapsed time calibrates to it. -/
theorem measuredRate_atRate (c : Config) {elapsed rate : Rat} (h : 0 < elapsed) (hlo : 30 ≤ rate) (hhi : rate ≤ 120)
    (otherwise : CalRound) :
    measuredRate { c with calRound := .atRate (60 * 1000 / elapsed) rate otherwise } elapsed = rate := by
  rw [measuredRate_of_pos _ h, roundBy_atRate_self, clamp_eq_self hlo hhi]

/-- Half way between two whole numbers, `Ties.even` gives the even one of them. -/
theorem even_nearestWhole_of_tie {raw : Rat} (h : raw - (⌊raw⌋ : Rat) = 1 / 2) : Even (nearestWhole .even raw) := by
  rw [nearestWhole_tie h, Int.even_iff]
  split
  · next falls => have := (tieFallsFrom_even _).mp falls; omega
  · next stays => have := mt (tieFallsFrom_even _).mpr stays; omega

/-- What rounding to the nearest whole rate gives half way between two, for each rule for ties (log entry 26). -/
theorem roundBy_nearest_of_tie {raw : Rat} (h : raw - (⌊raw⌋ : Rat) = 1 / 2) :
    roundBy (.nearest .up) raw = (⌊raw⌋ : Rat) + 1 ∧ roundBy (.nearest .down) raw = (⌊raw⌋ : Rat) ∧
      ∃ k : Int, roundBy (.nearest .even) raw = 2 * (k : Rat) := by
  refine ⟨by simp [nearestWhole_tie h], by simp [nearestWhole_tie h], ?_⟩
  obtain ⟨k, hk⟩ := even_nearestWhole_of_tie h
  exact ⟨k, by rw [roundBy_nearest, hk]; push_cast; ring⟩

/-- The rounding `r` with its value at each rate of a list changed to that of `f`. -/
def roundingChangedOn (f : Rat → Rat) (r : CalRound) : List Rat → CalRound
  | [] => r
  | q :: qs => .atRate q (f q) (roundingChangedOn f r qs)

theorem roundBy_roundingChangedOn (f : Rat → Rat) (r : CalRound) (raws : List Rat) (raw : Rat) :
    roundBy (roundingChangedOn f r raws) raw = if raw ∈ raws then f raw else roundBy r raw := by
  induction raws with
  | nil => rfl
  | cons q qs ih =>
    by_cases hq : raw = q
    · subst hq
      simp [roundingChangedOn]
    · simp [roundingChangedOn, roundBy_atRate_ne hq, ih, hq]

/-- Settles O17: the clamp gives the range, a rounding changed at the raw rate attains each rate of it, and changing a
rounding at finitely many rates is an induction over their list. -/
theorem calibratedRateRange : Obligations.CalibratedRateRange := by
  refine ⟨measuredRate_mem_Icc, fun c elapsed rate h hlo hhi => ⟨_, measuredRate_atRate c h hlo hhi .identity⟩,
    fun c elapsed h => measuredRate_of_nonpos c h, fun c raw => ?named, fun c f raws => ?changed⟩
  case named =>
    simp only [roundRate_eq]
    exact ⟨roundBy_identity raw, roundBy_floor raw,
      fun ties => ⟨_, roundBy_nearest ties raw, nearestWhole_near ties raw⟩,
      roundBy_nearest_of_tie, fun n => roundBy_other n raw⟩
  case changed =>
    refine ⟨roundingChangedOn f c.calRound raws, fun raw => ?_⟩
    simp only [roundRate_eq, roundBy_roundingChangedOn]
    exact ⟨fun h => if_pos h, fun h => if_neg h⟩

end Sys2Proof.Machine

/-! ## The two instances share nothing (rules R3, R58, R208)

`besideRx r s` is `s` standing beside the RX instance of `r`. A command of TX commutes with it: with `r = s` this says
that the command leaves the RX instance as it was, and with any other `r` that it does not look at it. `besideTx` is the
same for the commands of RX. -/

namespace Sys2Proof.Machine

/-- A change of the next state, where a command answers one. -/
def onNext (f : State → State) : Result → Result
  | .next s => .next (f s)
  | .fault r => .fault r
  | .refused r => .refused r

theorem onNext_ite (f : State → State) (p : Prop) [Decidable p] (a b : Result) :
    onNext f (if p then a else b) = if p then onNext f a else onNext f b :=
  apply_ite (onNext f) p a b

/-- A command clears the outputs of the one before it first, so it does not depend on them (rule R196). -/
theorem exec_clearOutputs (i : Instr) (s : State) : exec i (clearOutputs s) = exec i s := by
  cases i <;> rfl

/-! ### Commands of TX -/

/-- The TX instance, the parameters and the outputs of `s` with the RX instance and the port of `r`. -/
def besideRx (r s : State) : State :=
  { s with rx := r.rx, rxTime := r.rxTime, port := r.port, inputEnded := r.inputEnded }

@[simp] theorem besideRx_tx (r s : State) : (besideRx r s).tx = s.tx := rfl
@[simp] theorem besideRx_txTime (r s : State) : (besideRx r s).txTime = s.txTime := rfl
@[simp] theorem besideRx_config (r s : State) : (besideRx r s).config = s.config := rfl
@[simp] theorem besideRx_self (s : State) : besideRx s s = s := rfl

theorem showIndex_besideRx (r : State) (idx : Nat) (s : State) :
    showIndex idx (besideRx r s) = besideRx r (showIndex idx s) := by
  simp only [showIndex, besideRx_tx, apply_ite (besideRx r)]
  rfl

theorem calTick_besideRx (r : State) (t : Time) (s : State) :
    calTick t (besideRx r s) = onNext (besideRx r) (calTick t s) := by
  simp only [calTick, onNext_ite, besideRx_tx, besideRx_txTime, besideRx_config]
  cases s.tx.code[0]? <;> rfl

theorem runTick_besideRx (r : State) (t : Time) (s : State) :
    runTick t (besideRx r s) = onNext (besideRx r) (runTick t s) := by
  simp only [runTick, onNext_ite, showIndex_besideRx]
  rfl

theorem txTick_besideRx (r : State) (t : Time) (s : State) :
    txTick t (besideRx r s) = onNext (besideRx r) (txTick t s) := by
  simp only [txTick, onNext_ite, besideRx_tx, calTick_besideRx, runTick_besideRx]
  cases s.tx.phase <;> rfl

/-- A command of TX does the same beside any RX instance, and leaves that instance as it is. -/
theorem exec_besideRx {i : Instr} (h : isTx i = true) (r s : State) :
    exec i (besideRx r s) = onNext (besideRx r) (exec i s) := by
  cases i with
  | txStart now fps code =>
    simp only [exec, execTxStart, onNext_ite]
    rfl
  | txTick ts => exact txTick_besideRx r (timeOf ts) (clearOutputs s)
  | txStop => rfl
  | txColor => rfl
  | txStatus => rfl
  | _ => simp [isTx, instrOpcode, opcodeByte] at h

/-! ### Commands of RX -/

/-- The RX instance, the parameters and the outputs of `s` with the TX instance and the port of `r`. -/
def besideTx (r s : State) : State :=
  { s with tx := r.tx, txTime := r.txTime, port := r.port, inputEnded := r.inputEnded }

@[simp] theorem besideTx_rx (r s : State) : (besideTx r s).rx = s.rx := rfl
@[simp] theorem besideTx_rxTime (r s : State) : (besideTx r s).rxTime = s.rxTime := rfl
@[simp] theorem besideTx_config (r s : State) : (besideTx r s).config = s.config := rfl
@[simp] theorem besideTx_self (s : State) : besideTx s s = s := rfl

theorem rxStop_besideTx (r s : State) : rxStop (besideTx r s) = besideTx r (rxStop s) := by
  simp only [rxStop_eq]
  rfl

theorem requestCamera_besideTx (cid : Option (List Byte)) (w h : BitVec 16) (r s : State) :
    requestCamera cid w h (besideTx r s) = besideTx r (requestCamera cid w h s) := by
  simp only [requestCamera_eq]
  rfl

theorem rxStart_besideTx (video draw grant : Bool) (cid : Option (List Byte)) (w h : BitVec 16) (thr : BitVec 32)
    (e : List Symbol) (r s : State) :
    rxStart video draw grant cid w h thr e (besideTx r s)
      = onNext (besideTx r) (rxStart video draw grant cid w h thr e s) := by
  simp only [rxStart, onNext_ite, requestCamera_besideTx]
  rfl

theorem runMatch_besideTx (r s : State) : runMatch (besideTx r s) = besideTx r (runMatch s) := by
  simp only [runMatch, matchAction_eq, apply_ite (besideTx r)]
  rfl

theorem processSample_besideTx (b : Rat) (t : Time) (r s : State) :
    processSample b t (besideTx r s) = onNext (besideTx r) (processSample b t s) := by
  have closed (rx : RxState) : runMatch (setRxTime t (setRx rx (besideTx r s)))
      = besideTx r (runMatch (setRxTime t (setRx rx s))) := runMatch_besideTx r (setRxTime t (setRx rx s))
  simp only [processSample, onNext_ite, besideTx_rx, besideTx_config, closed]
  rfl

theorem failedFrame_besideTx (ts : BitVec 64) (r s : State) :
    failedFrame ts (besideTx r s) = onNext (besideTx r) (failedFrame ts s) := by
  simp only [failedFrame, besideTx_config]
  cases failedSample s.config ts with
  | none => rfl
  | some b => exact processSample_besideTx b (timeOf ts) r (emit (.log .runtimeCaptureError ts) s)

theorem rxFrame_besideTx (ts : BitVec 64) (ready ctx fail : Bool) (px : List Pixel) (r s : State) :
    rxFrame ts ready ctx fail px (besideTx r s) = onNext (besideTx r) (rxFrame ts ready ctx fail px s) := by
  have processed (rx : RxState) : processSample (frameBrightness px) (timeOf ts) (setRx rx (besideTx r s))
      = onNext (besideTx r) (processSample (frameBrightness px) (timeOf ts) (setRx rx s)) :=
    processSample_besideTx (frameBrightness px) (timeOf ts) r (setRx rx s)
  simp only [rxFrame, onNext_ite, failedFrame_besideTx, besideTx_rx, processed]
  rfl

/-- A command of RX does the same beside any TX instance, and leaves that instance as it is. -/
theorem exec_besideTx {i : Instr} (h : isTx i = false) (r s : State) :
    exec i (besideTx r s) = onNext (besideTx r) (exec i s) := by
  cases i with
  | rxStart video draw grant cid srcw srch thr e =>
    exact rxStart_besideTx video draw grant cid srcw srch thr e r (clearOutputs s)
  | rxFrame ts ready ctx fail px => exact rxFrame_besideTx ts ready ctx fail px r (clearOutputs s)
  | rxStop => exact congrArg done (rxStop_besideTx r (clearOutputs s))
  | rxReset => rfl
  | rxStatus => rfl
  | _ => simp [isTx, instrOpcode, opcodeByte] at h

/-! ### Both -/

/-- The state that a command of TX answers beside the RX instance of `r`. -/
theorem exec_next_of_same_tx {i : Instr} (h : isTx i = true) {r s s' : State} (hs : exec i s = .next s')
    (htx : r.tx = s.tx) (htime : r.txTime = s.txTime) (hconfig : r.config = s.config) :
    exec i r = .next (besideRx r s') := by
  have cleared : clearOutputs r = clearOutputs (besideRx r s) := by
    simp [clearOutputs, besideRx, htx, htime, hconfig]
  calc exec i r = exec i (besideRx r s) := by rw [← exec_clearOutputs, cleared, exec_clearOutputs]
    _ = .next (besideRx r s') := by rw [exec_besideRx h, hs, onNext]

/-- The state that a command of RX answers beside the TX instance of `r`. -/
theorem exec_next_of_same_rx {i : Instr} (h : isTx i = false) {r s s' : State} (hs : exec i s = .next s')
    (hrx : r.rx = s.rx) (htime : r.rxTime = s.rxTime) (hconfig : r.config = s.config) :
    exec i r = .next (besideTx r s') := by
  have cleared : clearOutputs r = clearOutputs (besideTx r s) := by
    simp [clearOutputs, besideTx, hrx, htime, hconfig]
  calc exec i r = exec i (besideTx r s) := by rw [← exec_clearOutputs, cleared, exec_clearOutputs]
    _ = .next (besideTx r s') := by rw [exec_besideTx h, hs, onNext]

/-- A command of TX changes no register of the RX instance and not its held time. -/
theorem exec_keeps_rx {i : Instr} (h : isTx i = true) {s s' : State} (hs : exec i s = .next s') :
    s'.rx = s.rx ∧ s'.rxTime = s.rxTime := by
  have frame : s' = besideRx s s' := by simpa [hs] using exec_next_of_same_tx h hs rfl rfl rfl
  rw [frame]
  exact ⟨rfl, rfl⟩

/-- A command of RX changes no register of the TX instance and not its held time. -/
theorem exec_keeps_tx {i : Instr} (h : isTx i = false) {s s' : State} (hs : exec i s = .next s') :
    s'.tx = s.tx ∧ s'.txTime = s.txTime := by
  have frame : s' = besideTx s s' := by simpa [hs] using exec_next_of_same_rx h hs rfl rfl rfl
  rw [frame]
  exact ⟨rfl, rfl⟩

/-- Settles O58: every command commutes with a change of the other instance. -/
theorem instancesShareNothing : Obligations.InstancesShareNothing := by
  intro i s s' hs
  constructor
  · intro h
    obtain ⟨hrx, hrxTime⟩ := exec_keeps_rx h hs
    exact ⟨hrx, hrxTime, fun r htx htime hconfig =>
      ⟨besideRx r s', exec_next_of_same_tx h hs htx htime hconfig, rfl, rfl, rfl, rfl, rfl, rfl⟩⟩
  · intro h
    obtain ⟨htx, htxTime⟩ := exec_keeps_tx h hs
    exact ⟨htx, htxTime, fun r hrx htime hconfig =>
      ⟨besideTx r s', exec_next_of_same_rx h hs hrx htime hconfig, rfl, rfl, rfl, rfl, rfl, rfl⟩⟩

end Sys2Proof.Machine

/-! ## What a good state is made of (rules R23, R226)

`StateInv` is one condition on the TX instance with its held time and one on the RX instance with its own (`TxGood`,
`RxGood`). A command of one instance leaves the other half as it is (`exec_keeps_tx`, `exec_keeps_rx`), so each command
has one half to keep. The sections below give first the ranges of the values the registers take, then what each write
keeps of its half, then the commands and the step. -/

namespace Sys2Proof

/-! ### The operands of a decoded command fit their length fields (rules R73 to R76) -/

/-- A field of `n` bytes holds less than `256 ^ n`. -/
theorem fieldNat_lt (p : List Byte) (lo n : Nat) : fieldNat p lo n < 256 ^ n :=
  (leValue_lt _).trans_le (Nat.pow_le_pow_right (by norm_num) (by simp))

/-- Each pixel takes three bytes (rule R75). -/
theorem pixelsOf_length_le (bs : List Byte) : 3 * (pixelsOf bs).length ≤ bs.length := by
  induction bs using pixelsOf.induct with
  | case1 r g b rest ih => simp only [pixelsOf, List.length_cons]; omega
  | case2 bs h => simp [pixelsOf]

theorem wf_decodeS (p : List Byte) : (decodeS p).wf = true := by
  have := fieldNat_lt p 13 2
  simp only [decodeS, wf_txStart_iff, slice_length]
  omega

theorem wf_decodeD {p : List Byte} {i : Instr} (h : decodeD p = .ok i) : i.wf = true := by
  have explen := fieldNat_lt p 10 2
  have cidlen := (byteAt p (12 + fieldNat p 10 2)).isLt
  unfold decodeD at h
  simp only at h
  split at h
  · cases h
  · split at h
    · cases h
    · cases h
      rw [wf_rxStart_iff]
      refine ⟨by simp only [slice_length]; omega, ?_⟩
      split <;> simp only [Option.getD_some, Option.getD_none, slice_length, List.length_nil] <;> omega

theorem wf_decodeF {p : List Byte} {i : Instr} (h : decodeF p = .ok i) : i.wf = true := by
  have count := fieldNat_lt p 10 4
  have fit := pixelsOf_length_le (slice p 14 (3 * fieldNat p 10 4))
  unfold decodeF at h
  simp only at h
  split at h
  · cases h
  · cases h
    rw [wf_rxFrame_iff]
    rw [slice_length] at fit
    omega

theorem wf_decodeWhole {o : Opcode} {p : List Byte} {i : Instr} (h : decodeWhole o p = .ok i) : i.wf = true := by
  cases o with
  | txStart => cases h; exact wf_decodeS p
  | rxStart => exact wf_decodeD h
  | rxFrame => exact wf_decodeF h
  | _ => cases h; rfl

theorem wf_of_decode {bs rest : List Byte} {i : Instr} (h : decode bs = .command i rest) : i.wf = true := by
  unfold decode at h
  split at h
  · cases h
  · split at h
    · cases h
    · split at h
      · cases h
      · split at h
        · next whole => cases h; exact wf_decodeWhole whole
        · cases h

end Sys2Proof

namespace Sys2Proof.Machine

/-! ### Brightness (rules R125, R126) -/

/-- The luminance weights add up to 1, so a luminance lies where the channels do. -/
theorem luma_mem_Icc (p : Pixel) : luma p ∈ Set.Icc 0 255 := by
  have channel (v : Byte) : (v.toNat : Rat) ≤ 255 := by exact_mod_cast Nat.le_of_lt_succ v.isLt
  have hr := channel p.r
  have hg := channel p.g
  have hb := channel p.b
  simp only [luma, literals_lumaR, literals_lumaG, literals_lumaB]
  exact ⟨by positivity, by linarith⟩

/-- A mean lies where the values do; that of no value is 0. -/
theorem mean_mem_Icc {hi : Rat} (hhi : 0 ≤ hi) {xs : List Rat} (h : ∀ x ∈ xs, x ∈ Set.Icc 0 hi) :
    mean xs ∈ Set.Icc 0 hi := by
  have above : xs.sum ≤ hi * (xs.length : Rat) := by
    simpa [mul_comm] using List.sum_le_card_nsmul xs hi fun x hx => (h x hx).2
  exact ⟨div_nonneg (List.sum_nonneg fun x hx => (h x hx).1) (Nat.cast_nonneg _),
    div_le_of_le_mul₀ (Nat.cast_nonneg _) hhi above⟩

theorem frameBrightness_mem_Icc (px : List Pixel) : frameBrightness px ∈ Set.Icc 0 255 := by
  refine mean_mem_Icc (by norm_num) fun x hx => ?_
  obtain ⟨p, -, rfl⟩ := List.mem_map.mp hx
  exact luma_mem_Icc p

/-! ### Rates and bit durations (rule R98) -/

theorem effectiveRate_mem_Icc (measured targetFps : Rat) : effectiveRate measured targetFps ∈ Set.Icc 30 120 := by
  simpa [effectiveRate] using clamp_mem_Icc (by norm_num : (30 : Rat) ≤ 120) (min measured targetFps)

theorem framesPerBit_pos (rate : Rat) : 0 < framesPerBit rate :=
  Int.cast_pos.mpr (lt_max_of_lt_left one_pos)

theorem bitDuration_pos {rate : Rat} (h : 0 < rate) : 0 < bitDuration rate :=
  mul_pos (by positivity) (framesPerBit_pos rate)

/-! ### The stream and the search (rules R145, R151, R154) -/

/-- APPEND on a stream within the capacity: the oldest bit goes exactly when the stream is full. -/
theorem appendBit_of_le {stream : List Bool} (h : stream.length ≤ 100) (bit : Bool) :
    appendBit bit stream = (if stream.length < 100 then stream else stream.drop 1) ++ [bit] := by
  by_cases room : stream.length < 100
  · have fits : ¬ 100 < stream.length + 1 := by omega
    simp [appendBit, fits, room]
  · have full : stream.length = 100 := by omega
    rw [appendBit, literals_streamCap, if_pos (by simp [full]), if_neg room,
      List.drop_append_of_le_length (by omega), List.take_of_length_le (by simp [full])]

theorem appendBit_length_le {stream : List Bool} (h : stream.length ≤ 100) (bit : Bool) :
    (appendBit bit stream).length ≤ 100 := by
  rw [appendBit_of_le h]
  split <;> simp <;> omega

theorem appendBit_getLast? {stream : List Bool} (h : stream.length ≤ 100) (bit : Bool) :
    (appendBit bit stream).getLast? = some bit := by
  simp [appendBit_of_le h]

theorem appendBit_ne_nil {stream : List Bool} (h : stream.length ≤ 100) (bit : Bool) : appendBit bit stream ≠ [] := by
  simp [appendBit_of_le h]

@[simp] theorem classifierAfter_ne_unknown (bit : Bool) : classifierAfter bit ≠ .unknown := by
  cases bit <;> simp [classifierAfter]

/-- No code stands in an empty stream. -/
theorem patternFound_nil {expected : List Symbol} (h : expected ≠ []) : patternFound expected [] = false := by
  have pos := List.length_pos_iff.mpr h
  have noPlace : 0 + 1 - expected.length = 0 := by omega
  simp [patternFound, windowLength, noPlace]

/-! ### The TX instance and its held time -/

/-- The TX half of `StateInv`: the instance's invariant, and no time of its run after the held time. -/
structure TxGood (tx : TxState) (held : Time) : Prop where
  inv : TxInv tx
  calTime : tx.phase = .cal → tx.calT0 ≤ held
  runTime : tx.phase = .run → tx.epoch ≤ held ∧ tx.fpsT0 ≤ held

/-- The reset registers are those of an idle instance, for any held time. -/
theorem txGood_reset (held : Time) : TxGood TxState.reset held where
  inv := {
    activeIff := by simp [TxState.reset]
    idle := fun _ => rfl
    codeBound := by simp [TxState.reset]
    codeNonempty := fun h => absurd rfl h
    calibrating := fun h => nomatch h
    running := fun h => nomatch h }
  calTime h := nomatch h
  runTime h := nomatch h

/-- What makes an active instance in CAL good. -/
theorem txGood_of_cal {tx : TxState} {held : Time} (active : tx.active = true) (phase : tx.phase = .cal)
    (codeBound : tx.code.length ≤ 65535) (code : tx.code ≠ []) (count : tx.calCount < 60)
    (others : tx = { TxState.reset with active := true, phase := .cal, code := tx.code, targetFps := tx.targetFps,
                                        calT0 := tx.calT0, calCount := tx.calCount })
    (time : tx.calT0 ≤ held) : TxGood tx held where
  inv := {
    activeIff := by simp [active, phase]
    idle := by simp [phase]
    codeBound := by simpa using codeBound
    codeNonempty := fun _ => code
    calibrating := fun _ => ⟨by simpa using count, others⟩
    running := by simp [phase] }
  calTime _ := time
  runTime h := by simp [phase] at h

/-- What makes an active instance in RUN good: a code needs no mention, since the index lies in it. -/
theorem txGood_of_run {tx : TxState} {held : Time} (active : tx.active = true) (phase : tx.phase = .run)
    (codeBound : tx.code.length ≤ 65535) (rate : tx.effRate ∈ Set.Icc 30 120) (dur : tx.bitDur = bitDuration tx.effRate)
    (index : tx.bitIndex < tx.code.length) (shown : tx.curBit = tx.code[tx.bitIndex]?) (window : tx.epoch ≤ tx.fpsT0)
    (time : tx.fpsT0 ≤ held) : TxGood tx held where
  inv := {
    activeIff := by simp [active, phase]
    idle := by simp [phase]
    codeBound := by simpa using codeBound
    codeNonempty := fun _ => List.length_pos_iff.mp (by omega)
    calibrating := by simp [phase]
    running := fun _ => ⟨rate.1, rate.2, dur, dur ▸ bitDuration_pos (by linarith [rate.1]), index, shown, window⟩ }
  calTime h := by simp [phase] at h
  runTime _ := ⟨window.trans time, time⟩

/-- After the implicit stop of `TX.START` the registers are the reset ones, whether a run was active or not (R93). -/
theorem txImplicitStop_eq_reset {tx : TxState} (h : TxInv tx) : txImplicitStop tx = TxState.reset := by
  unfold txImplicitStop
  split
  · rfl
  · next inactive => exact h.idle (by_contra fun busy => inactive (h.activeIff.mpr busy))

/-- The writes of an accepted start (rule R94). -/
theorem txGood_accept (now : Time) (fps : Rat) {code : List Bool} (ne : code ≠ []) (bound : code.length ≤ 65535) :
    TxGood (txAccept now fps code TxState.reset) now :=
  txGood_of_cal rfl rfl bound ne (by simp) rfl le_rfl

/-- A counted callback that does not complete the calibration (rule R96). -/
theorem TxGood.countCallback {tx : TxState} {held t : Time} (h : TxGood tx held) (phase : tx.phase = .cal)
    (notLast : tx.calCount + 1 ≠ 60) (le : tx.calT0 ≤ t) : TxGood { tx with calCount := tx.calCount + 1 } t := by
  have busy : tx.phase ≠ .idle := by simp [phase]
  obtain ⟨count, others⟩ := h.inv.calibrating phase
  rw [literals_calFrames] at count
  refine txGood_of_cal (h.inv.activeIff.mpr busy) phase h.inv.codeBound (h.inv.codeNonempty busy)
    (by simp only; omega) ?_ le
  rw [others]

/-- The completion of the calibration (rules R98, R99), at its last count. -/
theorem TxGood.beginLoop {tx : TxState} {held : Time} (h : TxGood tx held) (phase : tx.phase = .cal)
    (measured : Rat) (t : Time) (count : Nat) {bit : Bool} (first : tx.code[0]? = some bit) :
    TxGood (beginLoop measured t bit { tx with calCount := count }) t :=
  txGood_of_run (h.inv.activeIff.mpr (by simp [phase])) rfl h.inv.codeBound (effectiveRate_mem_Icc ..) rfl
    (List.getElem?_eq_some_iff.mp first).1 first.symm le_rfl le_rfl

/-- The visible bit moves to another index of the code (rule R101). -/
theorem TxGood.moveIndex {tx : TxState} {held : Time} (h : TxGood tx held) (phase : tx.phase = .run) {idx : Nat}
    (inCode : idx < tx.code.length) : TxGood { tx with bitIndex := idx, curBit := tx.code[idx]? } held := by
  obtain ⟨lo, hi, dur, -, -, -, window⟩ := h.inv.running phase
  exact txGood_of_run (h.inv.activeIff.mpr (by simp [phase])) phase h.inv.codeBound ⟨lo, hi⟩ dur inCode rfl window
    (h.runTime phase).2

/-- The FPS counter of a loop iteration (rule R102): its window begins at `t` or where it did. -/
theorem TxGood.countTick {tx : TxState} {held t : Time} (h : TxGood tx held) (phase : tx.phase = .run)
    (epoch : tx.epoch ≤ t) (fpsT0 : tx.fpsT0 ≤ t) : TxGood (countTick t tx) t := by
  obtain ⟨lo, hi, dur, -, index, shown, window⟩ := h.inv.running phase
  have active := h.inv.activeIff.mpr (by simp [phase])
  have start : (Machine.countTick t tx).fpsT0 ∈ Set.Icc tx.epoch t := by
    rw [countTick_fpsT0]
    split
    · exact ⟨epoch, le_rfl⟩
    · exact ⟨window, fpsT0⟩
  exact txGood_of_run (by simpa) (by simpa) (by simpa using h.inv.codeBound) (by simpa using ⟨lo, hi⟩) (by simpa)
    (by simpa) (by simpa) (by simpa using start.1) start.2

/-! ### The RX instance and its held time -/

/-- The RX half of `StateInv`: the instance's invariant, and no time of its run after the held time. -/
structure RxGood (rx : RxState) (held : Time) : Prop where
  inv : RxInv rx
  frameTime : rx.first = false → rx.winAnchor ≤ held ∧ rx.fpsT0 ≤ held

/-- What makes an instance good that has decoded no bit: no code stands in its empty stream. -/
theorem rxInv_of_undecoded {rx : RxState} (stream : rx.stream = []) (cls : rx.cls = .unknown)
    (notGranted : rx.matchResult = .none) (expectedBound : rx.expected.length ≤ literals.codeMax)
    (brightRange : 0 ≤ rx.bright ∧ rx.bright ≤ 255) (winRange : ∀ b ∈ rx.win, 0 ≤ b ∧ b ≤ 255)
    (firstWindow : rx.first = true → rx.win = []) : RxInv rx where
  streamBound := by simp [stream]
  inactive _ := ⟨stream, cls⟩
  notGranted := notGranted
  expectedBound := expectedBound
  brightRange := brightRange
  winRange := winRange
  firstWindow := firstWindow
  unknownIff := by simp [stream, cls]
  lastDecision := by simp [stream]
  notYetFound h := by rw [stream, patternFound_nil h]

theorem rxGood_reset (held : Time) : RxGood RxState.reset held where
  inv := rxInv_of_undecoded rfl rfl rfl (by simp [RxState.reset]) (by norm_num [RxState.reset])
    (by simp [RxState.reset]) (fun _ => rfl)
  frameTime h := nomatch h

/-- `RX.RESET` empties the decoding and nothing else (rule R172). -/
theorem RxGood.clearDecoding {rx : RxState} {held : Time} (h : RxGood rx held) : RxGood (clearDecoding rx) held where
  inv := rxInv_of_undecoded rfl rfl rfl h.inv.expectedBound h.inv.brightRange h.inv.winRange h.inv.firstWindow
  frameTime := h.frameTime

/-- `RX.STOP` (rule R170), also the implicit stop and the end of a match. -/
theorem RxGood.rxStopWrites {rx : RxState} {held : Time} (h : RxGood rx held) : RxGood (rxStopWrites rx) held where
  inv := rxInv_of_undecoded rfl rfl rfl h.inv.expectedBound h.inv.brightRange h.inv.winRange h.inv.firstWindow
  frameTime := h.frameTime

/-- The resize of `RX.START` (rule R167 step 3). -/
theorem RxGood.sizeTarget {rx : RxState} {held : Time} (h : RxGood rx held) (srcw srch : BitVec 16) :
    RxGood (sizeTarget srcw srch rx) held where
  inv := { h.inv with }
  frameTime := h.frameTime

/-- The writes of a granted `RX.START` (rule R167 steps 6 and 7): no frame of the new run has a time yet. -/
theorem RxGood.beginRun {rx : RxState} {held : Time} (h : RxGood rx held) (threshold : Rat) {expected : List Symbol}
    (bound : expected.length ≤ 65535) : RxGood (beginRun threshold expected rx) held where
  inv := rxInv_of_undecoded rfl rfl rfl (by simpa using bound) h.inv.brightRange (by simp) (fun _ => rfl)
  frameTime first := nomatch first

/-- RX_BRIGHT takes a brightness (rule R126). -/
theorem RxGood.recordBrightness {rx : RxState} {held b : Rat} (h : RxGood rx held) (range : 0 ≤ b ∧ b ≤ 255) :
    RxGood (recordBrightness b rx) held where
  inv := { h.inv with brightRange := range }
  frameTime := h.frameTime

/-- A sample joins the window of an active run (rules R127, R129, R130). -/
theorem RxGood.takeSample {rx : RxState} {held t b : Rat} (h : RxGood rx held) (active : rx.active = true)
    (range : 0 ≤ b ∧ b ≤ 255) (order : rx.first = false → held ≤ t) (c : Config) :
    RxGood (takeSample c b t rx) t where
  inv := {
    streamBound := by simpa using h.inv.streamBound
    inactive := by simp [active]
    notGranted := by simpa using h.inv.notGranted
    expectedBound := by simpa using h.inv.expectedBound
    brightRange := by simpa using h.inv.brightRange
    winRange := by
      intro x hx
      rw [takeSample_win, List.mem_append, List.mem_singleton] at hx
      obtain kept | rfl := hx
      · exact h.inv.winRange x ((windowKeeps_sublist c rx.win b).subset kept)
      · exact range
    firstWindow := by simp
    unknownIff := by simpa using h.inv.unknownIff
    lastDecision := by simpa using h.inv.lastDecision
    notYetFound := by simpa using h.inv.notYetFound }
  frameTime := by
    cases first : rx.first with
    | true => simp [first]
    | false =>
      obtain ⟨anchor, fpsT0⟩ := h.frameTime first
      simp only [takeSample_winAnchor, takeSample_fpsT0, first, Bool.false_eq_true, if_false]
      refine fun _ => ⟨anchor.trans (order first), ?_⟩
      split
      · exact le_rfl
      · exact fpsT0.trans (order first)

/-- A period of an active run closes (rule R131) and no match follows: the new bit is the stream's newest and the
classifier's last decision. -/
theorem RxGood.closePeriod {rx : RxState} {t : Time} (h : RxGood rx t) (active : rx.active = true)
    (first : rx.first = false)
    (noMatch : (closePeriod t rx).expected = [] ∨
      patternFound (closePeriod t rx).expected (closePeriod t rx).stream = false) :
    RxGood (closePeriod t rx) t := by
  have bound : rx.stream.length ≤ 100 := by simpa using h.inv.streamBound
  exact {
    inv := {
      streamBound := by simpa using appendBit_length_le bound _
      inactive := by simp [active]
      notGranted := h.inv.notGranted
      expectedBound := h.inv.expectedBound
      brightRange := h.inv.brightRange
      winRange := by simp
      firstWindow := by simp
      unknownIff := by simp [appendBit_ne_nil bound]
      lastDecision := by simp [appendBit_getLast? bound]
      notYetFound := fun ne => noMatch.resolve_left ne }
    frameTime := fun _ => ⟨le_rfl, (h.frameTime first).2⟩ }

/-- A match ends the run at the close of a period (rule R155): the stop leaves nothing of the new bit. -/
theorem RxGood.closePeriod_rxStopWrites {rx : RxState} {t : Time} (h : RxGood rx t) (first : rx.first = false) :
    RxGood (Machine.rxStopWrites (Machine.closePeriod t rx)) t where
  inv := rxInv_of_undecoded rfl rfl rfl h.inv.expectedBound h.inv.brightRange (by simp) (by simp)
  frameTime _ := ⟨le_rfl, (h.frameTime first).2⟩

/-! ### The commands -/

theorem ne_nil_of_isBinaryCode {code : List Symbol} (h : isBinaryCode code = true) : code ≠ [] := by
  rintro rfl
  cases h

/-- `TX.START` keeps the TX half: a refused one writes nothing, and an accepted one begins from the reset registers. -/
theorem exec_txStart_keeps_txGood {now : BitVec 64} {fps : BitVec 32} {code : List Symbol} {s s' : State}
    (bound : code.length ≤ 65535) (hs : exec (.txStart now fps code) s = .next s') (h : TxGood s.tx s.txTime) :
    TxGood s'.tx s'.txTime := by
  rw [exec_txStart] at hs
  cases hs
  split
  · next binary =>
    simpa [txImplicitStop_eq_reset h.inv] using
      txGood_accept (timeOf now) (q16 fps) (by simpa using ne_nil_of_isBinaryCode binary)
        (by simpa using bound : (code.map bitOf).length ≤ 65535)
  · exact h

/-- `TX.TICK` keeps the TX half. -/
theorem exec_txTick_keeps_txGood {ts : BitVec 64} {s s' : State} (hs : exec (.txTick ts) s = .next s')
    (h : TxGood s.tx s.txTime) : TxGood s'.tx s'.txTime := by
  rcases exec_txTick_cases hs with ⟨-, rfl⟩ | ⟨-, cal, -, le, notLast, rfl⟩ |
    ⟨-, cal, -, -, -, bit, first, rfl⟩ | ⟨-, run, -, epoch, fpsT0, code, -, idx, hidx, rfl⟩
  · exact h
  · exact h.countCallback cal notLast le
  · exact h.beginLoop cal _ _ _ first
  · have inCode : idx < s.tx.code.length := hidx ▸ bitIndexAt_lt (by simpa using code)
    dsimp only
    split
    · exact h.countTick run epoch fpsT0
    · exact (h.moveIndex run inCode).countTick run epoch fpsT0

/-- `RX.START` keeps the RX half, whether it is refused, denied the camera or granted. -/
theorem exec_rxStart_keeps_rxGood {video draw grant : Bool} {cid : Option (List Byte)} {srcw srch : BitVec 16}
    {thr : BitVec 32} {expected : List Symbol} {s s' : State} (bound : expected.length ≤ 65535)
    (hs : exec (.rxStart video draw grant cid srcw srch thr expected) s = .next s') (h : RxGood s.rx s.rxTime) :
    RxGood s'.rx s'.rxTime := by
  have stopped : RxGood (if s.rx.active then rxStopWrites s.rx else s.rx) s.rxTime := by
    split
    · exact h.rxStopWrites
    · exact h
  have sized := stopped.sizeTarget srcw srch
  rw [exec_rxStart] at hs
  cases hs
  dsimp only
  split
  · exact h
  · split
    · exact h
    · split
      · exact sized.beginRun _ bound
      · exact sized

/-- `RX.FRAME` keeps the RX half: a processed one in the window, in the period that it closes, or in the stop that a
match brings. -/
theorem exec_rxFrame_keeps_rxGood {ts : BitVec 64} {ready ctx fail : Bool} {px : List Pixel} {s s' : State}
    (hs : exec (.rxFrame ts ready ctx fail px) s = .next s') (h : RxGood s.rx s.rxTime) :
    RxGood s'.rx s'.rxTime := by
  rcases exec_rxFrame_cases hs with ⟨-, rfl⟩ | ⟨-, -, -, rfl⟩ |
    ⟨active, -, -, order, b, rx0, logged, takes, rx, rfl, outcome⟩
  · exact h
  · exact h
  · have sampled : RxGood (takeSample s.config b (timeOf ts) rx0) (timeOf ts) ∧ rx0.active = true := by
      rcases takes with ⟨-, corrupted, rfl, -⟩ | ⟨-, -, rfl, rfl, -⟩
      · exact ⟨h.takeSample active (failedSample_range corrupted) (fun first => (order first).1) _, active⟩
      · have range := frameBrightness_mem_Icc px
        exact ⟨(h.recordBrightness range).takeSample active range (fun first => (order first).1) _, active⟩
    obtain ⟨good, active0⟩ := sampled
    rcases outcome with ⟨-, rfl⟩ | ⟨-, closed, rfl, ⟨noMatch, rfl⟩ | ⟨-, -, rfl⟩⟩
    · exact good
    · exact good.closePeriod (by simpa using active0) (by simp) noMatch
    · exact good.closePeriod_rxStopWrites (by simp)

/-! ### Every command, every step -/

theorem exec_keeps_txGood {i : Instr} {s s' : State} (wf : i.wf = true) (hs : exec i s = .next s')
    (h : TxGood s.tx s.txTime) : TxGood s'.tx s'.txTime := by
  cases i with
  | txStart now fps code => exact exec_txStart_keeps_txGood ((wf_txStart_iff ..).mp wf) hs h
  | txTick ts => exact exec_txTick_keeps_txGood hs h
  | txStop => cases hs; exact txGood_reset _
  | txColor => cases hs; exact h
  | txStatus => cases hs; exact h
  | _ =>
    obtain ⟨tx, txTime⟩ := exec_keeps_tx (by simp [isTx, instrOpcode, opcodeByte]) hs
    rwa [tx, txTime]

theorem exec_keeps_rxGood {i : Instr} {s s' : State} (wf : i.wf = true) (hs : exec i s = .next s')
    (h : RxGood s.rx s.rxTime) : RxGood s'.rx s'.rxTime := by
  cases i with
  | rxStart video draw grant cid srcw srch thr expected =>
    exact exec_rxStart_keeps_rxGood ((wf_rxStart_iff ..).mp wf).1 hs h
  | rxFrame ts ready ctx fail px => exact exec_rxFrame_keeps_rxGood hs h
  | rxStop => rw [exec_rxStop] at hs; cases hs; exact h.rxStopWrites
  | rxReset => cases hs; exact h.clearDecoding
  | rxStatus => cases hs; exact h
  | _ =>
    obtain ⟨rx, rxTime⟩ := exec_keeps_rx (by simp [isTx, instrOpcode, opcodeByte]) hs
    rwa [rx, rxTime]

theorem stateInv_iff (s : State) : StateInv s ↔ TxGood s.tx s.txTime ∧ RxGood s.rx s.rxTime where
  mp h := ⟨⟨h.tx, h.calTime, h.runTime⟩, ⟨h.rx, h.frameTime⟩⟩
  mpr h := ⟨h.1.inv, h.2.inv, h.1.calTime, h.1.runTime, h.2.frameTime⟩

/-- Settles O55: a step without a command writes no register, a decoded command is well-formed, and each command keeps
both halves. -/
theorem stepKeepsTheInvariant : Obligations.StepKeepsTheInvariant := by
  intro s s' inv hs
  obtain ⟨tx, rx⟩ := (stateInv_iff s).mp inv
  rw [stateInv_iff]
  rcases step_cases hs with ⟨-, rfl⟩ | ⟨i, rest, command, executed⟩ | ⟨why, rest, -, rfl⟩
  · exact ⟨tx, rx⟩
  · have wf := wf_of_decode command
    exact ⟨exec_keeps_txGood wf executed tx, exec_keeps_rxGood wf executed rx⟩
  · exact ⟨tx, rx⟩

/-! ### From power-on -/

/-- Settles O54: both instances hold their reset registers, and the open parameters play no part. -/
theorem resetMeetsTheInvariant : Obligations.ResetMeetsTheInvariant :=
  ⟨(stateInv_iff _).mpr ⟨txGood_reset 0, rxGood_reset 0⟩,
    fun c => (stateInv_iff { State.reset with config := c }).mpr ⟨txGood_reset 0, rxGood_reset 0⟩⟩

/-- The invariant holds of every state a device can reach, by induction on how it is reached. -/
theorem Reachable.stateInv {s : State} (h : Reachable s) : StateInv s := by
  induction h with
  | reset c => exact resetMeetsTheInvariant.2 c
  | arrive bytes _ _ ih => exact { ih with }
  | endInput _ ih => exact { ih with }
  | step _ hs ih => exact stepKeepsTheInvariant _ _ ih hs

/-- Settles O56: rule R23's lines are parts of the invariant that every reachable state meets. -/
theorem reachableStatesMeetTheSixLines : Obligations.ReachableStatesMeetTheSixLines := by
  intro s reached
  obtain ⟨tx, rx, -, -, -⟩ := reached.stateInv
  refine ⟨tx.activeIff, tx.idle, fun run => ?line3, by simpa using rx.streamBound, fun stopped => ?line5, rx.notGranted⟩
  case line3 =>
    obtain ⟨-, -, -, dur, index, shown, -⟩ := tx.running run
    exact ⟨Nat.one_le_of_lt index, dur, index, shown⟩
  case line5 =>
    obtain ⟨stream, cls⟩ := rx.inactive stopped
    exact ⟨stream, cls, rx.notGranted⟩

/-- Settles O53: the reset table's columns are the records of `State.reset`, and `TX.STOP` writes the TX column. -/
theorem resetLeavesTheTableOfValues : Obligations.ResetLeavesTheTableOfValues :=
  ⟨rfl, rfl, rfl, fun s => ⟨_, exec_txStop s, rfl⟩⟩

end Sys2Proof.Machine

/-! ## A well-formed command's packet decodes to it (rules R70 to R77, R80)

`decode` measures the packet by its length fields, then reads it whole. The first is `packetLength_encode`; the second
is `decodeWhole_encode`, from one lemma for each format that has operands. -/

namespace Sys2Proof

/-! ### The fields of an encoded packet -/

theorem leValue_leBytes_of_lt {n v : Nat} (h : v < 256 ^ n) : leValue (leBytes n v) = v := by
  rw [leValue_leBytes, Nat.mod_eq_of_lt h]

theorem ofNat_leValue_leBytes (n : Nat) {w : Nat} (hw : w = 8 * n) (v : BitVec w) :
    BitVec.ofNat w (leValue (leBytes n v.toNat)) = v := by
  have fits : v.toNat < 256 ^ n := by simpa [hw, pow_mul] using v.isLt
  rw [leValue_leBytes_of_lt fits, BitVec.ofNat_toNat, BitVec.setWidth_eq]

/-- A variable part that stands at byte `lo`. -/
theorem slice_of_drop {p part after : List Byte} {lo n : Nat} (h : p.drop lo = part ++ after) (hn : part.length = n) :
    slice p lo n = part := by
  rw [slice, h, ← hn, List.take_left]

theorem byteAt_of_drop {p after : List Byte} {b : Byte} {lo : Nat} (h : p.drop lo = b :: after) : byteAt p lo = b := by
  have hb : p[lo]? = some b := by simpa [h] using (List.getElem?_drop (xs := p) (i := lo) (j := 0)).symm
  rw [byteAt, List.getD_eq_getElem?_getD, hb, Option.getD_some]

/-! ### The formats -/

theorem decodeS_encode {now : BitVec 64} {fps : BitVec 32} {code : List Symbol}
    (wf : (Instr.txStart now fps code).wf = true) :
    decodeS (encode (.txStart now fps code)) = .txStart now fps code := by
  have bound := (wf_txStart_iff now fps code).mp wf
  generalize packet : encode (.txStart now fps code) = p
  have nowField : fieldNat p 1 8 = leValue (leBytes 8 now.toNat) := by subst packet; rfl
  have fpsField : fieldNat p 9 4 = leValue (leBytes 4 fps.toNat) := by subst packet; rfl
  have lenField : fieldNat p 13 2 = leValue (leBytes 2 code.length) := by subst packet; rfl
  have body : p.drop 15 = code ++ [] := by subst packet; simp only [List.append_nil]; rfl
  rw [leValue_leBytes_of_lt (by omega)] at lenField
  rw [decodeS, nowField, fpsField, lenField, ofNat_leValue_leBytes 8 rfl, ofNat_leValue_leBytes 4 rfl,
    slice_of_drop body rfl]

theorem decodeT_encode (ts : BitVec 64) : decodeT (encode (.txTick ts)) = .txTick ts :=
  congrArg Instr.txTick (ofNat_leValue_leBytes 8 rfl ts)

theorem decodeD_encode {video draw grant : Bool} {cid : Option (List Byte)} {srcw srch : BitVec 16} {thr : BitVec 32}
    {expected : List Symbol} (wf : (Instr.rxStart video draw grant cid srcw srch thr expected).wf = true) :
    decodeD (encode (.rxStart video draw grant cid srcw srch thr expected))
      = .ok (.rxStart video draw grant cid srcw srch thr expected) := by
  obtain ⟨expBound, cidBound⟩ := (wf_rxStart_iff ..).mp wf
  generalize packet : encode (.rxStart video draw grant cid srcw srch thr expected) = p
  have flags : byteAt p 1 = flagByte video draw grant cid.isSome := by subst packet; rfl
  have srcwField : fieldNat p 2 2 = leValue (leBytes 2 srcw.toNat) := by subst packet; rfl
  have srchField : fieldNat p 4 2 = leValue (leBytes 2 srch.toNat) := by subst packet; rfl
  have thrField : fieldNat p 6 4 = leValue (leBytes 4 thr.toNat) := by subst packet; rfl
  have expLen : fieldNat p 10 2 = leValue (leBytes 2 expected.length) := by subst packet; rfl
  have body : p.drop 12 = expected ++ BitVec.ofNat 8 (cid.getD []).length :: cid.getD [] := by subst packet; rfl
  rw [leValue_leBytes_of_lt (by omega)] at expLen
  have atLength : p.drop (12 + expected.length) = BitVec.ofNat 8 (cid.getD []).length :: cid.getD [] := by
    rw [← List.drop_drop, body, List.drop_left]
  have afterLength : p.drop (13 + expected.length) = cid.getD [] ++ [] := by
    rw [show 13 + expected.length = 12 + expected.length + 1 by omega, ← List.drop_drop, atLength, List.drop_one,
      List.tail_cons, List.append_nil]
  have cidLen : (byteAt p (12 + expected.length)).toNat = (cid.getD []).length := by
    rw [byteAt_of_drop atLength, BitVec.toNat_ofNat, Nat.mod_eq_of_lt (by omega)]
  obtain ⟨bit0, bit1, bit2, bit3, reserved⟩ := flagByte_bits video draw grant cid.isSome
  have cidFlagged : ¬ (cid.isSome = false ∧ (cid.getD []).length ≠ 0) := by cases cid <;> simp
  have cidRead : (if cid.isSome then some (cid.getD []) else none) = cid := by cases cid <;> rfl
  simp only [decodeD, flags, srcwField, srchField, thrField, expLen, cidLen, bit0, bit1, bit2, bit3, reserved,
    slice_of_drop body rfl, slice_of_drop afterLength rfl, ofNat_leValue_leBytes 2 rfl, ofNat_leValue_leBytes 4 rfl,
    cidRead, if_neg cidFlagged, ne_eq, not_true_eq_false, if_false]

theorem decodeF_encode {ts : BitVec 64} {ready ctx fail : Bool} {pixels : List Pixel}
    (wf : (Instr.rxFrame ts ready ctx fail pixels).wf = true) :
    decodeF (encode (.rxFrame ts ready ctx fail pixels)) = .ok (.rxFrame ts ready ctx fail pixels) := by
  have bound := (wf_rxFrame_iff ts ready ctx fail pixels).mp wf
  generalize packet : encode (.rxFrame ts ready ctx fail pixels) = p
  have tsField : fieldNat p 1 8 = leValue (leBytes 8 ts.toNat) := by subst packet; rfl
  have flags : byteAt p 9 = flagByte ready ctx fail false := by subst packet; rfl
  have countField : fieldNat p 10 4 = leValue (leBytes 4 pixels.length) := by subst packet; rfl
  have body : p.drop 14 = pixels.flatMap pixelBytes ++ [] := by subst packet; simp only [List.append_nil]; rfl
  rw [leValue_leBytes_of_lt (by omega)] at countField
  have pixelsRead : pixelsOf (pixels.flatMap pixelBytes) = pixels := by
    simpa using pixelsOf_flatMap pixels [] rfl
  obtain ⟨bit0, bit1, bit2, -, -⟩ := flagByte_bits ready ctx fail false
  simp only [decodeF, tsField, flags, countField, bit0, bit1, bit2, flagByte_reserved, ofNat_leValue_leBytes 8 rfl,
    slice_of_drop body (flatMap_pixelBytes_length pixels), pixelsRead, ne_eq, not_true_eq_false, if_false]

/-! ### The whole packet -/

theorem decodeWhole_encode {i : Instr} (wf : i.wf = true) : decodeWhole (instrOpcode i) (encode i) = .ok i := by
  cases i with
  | txStart now fps code => exact congrArg Except.ok (decodeS_encode wf)
  | txTick ts => exact congrArg Except.ok (decodeT_encode ts)
  | rxStart video draw grant cid srcw srch thr expected => exact decodeD_encode wf
  | rxFrame ts ready ctx fail pixels => exact decodeF_encode wf
  | _ => rfl

theorem packetLength_encode {i : Instr} (wf : i.wf = true) (rest : List Byte) :
    packetLength (opcodeFormat (instrOpcode i)) (encode i ++ rest) = (encode i).length := by
  cases i with
  | txStart now fps code => exact Laws.PacketLengthIsLength.txStart now fps code wf rest
  | rxStart video draw grant cid srcw srch thr expected =>
    exact Laws.PacketLengthIsLength.rxStart video draw grant cid srcw srch thr expected wf rest
  | rxFrame ts ready ctx fail pixels => exact Laws.PacketLengthIsLength.rxFrame ts ready ctx fail pixels wf rest
  | _ => rfl

theorem decode_encode {i : Instr} (wf : i.wf = true) (rest : List Byte) :
    decode (encode i ++ rest) = .command i rest := by
  have arrived : ¬ (encode i ++ rest).length < (encode i).length := by simp
  have opening : encode i ++ rest = opcodeByte (instrOpcode i) :: (operandBytes i ++ rest) := rfl
  have whole := packetLength_encode wf rest
  have taken : (encode i ++ rest).take (encode i).length = encode i := List.take_left
  have left : (encode i ++ rest).drop (encode i).length = rest := List.drop_left
  have read := decodeWhole_encode wf
  rw [opening] at arrived whole taken left ⊢
  simp only [decode, opcodeOf_opcodeByte, whole, if_neg arrived, taken, left, read]

end Sys2Proof

/-! ## The port: packets are taken whole and in the order of their bytes (rules R58, R60, R70) -/

namespace Sys2Proof.Machine

/-- Settles O7: the fetch finds the decoded command, and the step is its execution. -/
theorem stepRunsTheDecodedCommand : Obligations.StepRunsTheDecodedCommand := by
  intro s i rest command
  rw [step, fetch_command command]
  rfl

theorem onNext_onNext (f g : State → State) (r : Result) : onNext f (onNext g r) = onNext (f ∘ g) r := by
  cases r <;> rfl

/-- A command neither reads nor writes the bytes at the port: beside the other instance, which it leaves alone, the
port is one more thing that it leaves alone. -/
theorem exec_setPort (i : Instr) (bytes : List Byte) (s : State) :
    exec i (setPort bytes s) = onNext (setPort bytes) (exec i s) := by
  cases side : isTx i with
  | true =>
    calc exec i (setPort bytes s)
        = onNext (setPort bytes ∘ besideRx s) (exec i s) := exec_besideRx side (setPort bytes s) s
      _ = onNext (setPort bytes) (exec i s) := by rw [← onNext_onNext, ← exec_besideRx side, besideRx_self]
  | false =>
    calc exec i (setPort bytes s)
        = onNext (setPort bytes ∘ besideTx s) (exec i s) := exec_besideTx side (setPort bytes s) s
      _ = onNext (setPort bytes) (exec i s) := by rw [← onNext_onNext, ← exec_besideTx side, besideTx_self]

/-- What follows a step or a command that answers a next state; a fault or a refusal is where the run stops. -/
def andThen {σ φ ρ : Type} (r : Host.Outcome σ φ ρ) (sequel : σ → Host.Outcome σ φ ρ) : Host.Outcome σ φ ρ :=
  match r with
  | .next s => sequel s
  | .fault r => .fault r
  | .refused r => .refused r

theorem andThen_onNext (f : State → State) (r : Result) (sequel : State → Result) :
    andThen (onNext f r) sequel = andThen r (sequel ∘ f) := by
  cases r <;> rfl

theorem run_succ (M : Host.Core) (k : Nat) (s : M.State) : M.run (k + 1) s = andThen (M.step s) (M.run k) := by
  rw [Host.Core.run]
  cases M.step s <;> rfl

/-- The run of the host's machine, written with the model's own types. -/
def deviceRun (k : Nat) (s : State) : Result := Sys2Proof.core.run k s

theorem deviceRun_zero (s : State) : deviceRun 0 s = .next s := rfl

theorem deviceRun_succ (k : Nat) (s : State) : deviceRun (k + 1) s = andThen (step s) (deviceRun k) :=
  run_succ Sys2Proof.core k s

theorem execAll_cons (i : Instr) (is : List Instr) (s : State) :
    execAll (i :: is) s = andThen (exec i s) (execAll is) := by
  rw [execAll]
  cases exec i s <;> rfl

/-- Packets that stand at the port in front of any other bytes are executed in order and taken, and the other bytes
stay. -/
theorem deviceRun_of_packets {is : List Instr} (wf : ∀ i ∈ is, i.wf = true) {rest : List Byte} {s : State}
    (port : s.port = is.flatMap encode ++ rest) : deviceRun is.length s = execAll is (setPort rest s) := by
  induction is generalizing s with
  | nil =>
    obtain rfl : s.port = rest := port
    exact deviceRun_zero s
  | cons i is ih =>
    obtain ⟨head, tail⟩ := List.forall_mem_cons.mp wf
    have command : decode s.port = .command i (is.flatMap encode ++ rest) := by
      rw [port, List.flatMap_cons, List.append_assoc, decode_encode head]
    have stepped : step s = exec i (setPort (is.flatMap encode ++ rest) s) := stepRunsTheDecodedCommand s i _ command
    have remaining : deviceRun is.length ∘ setPort (is.flatMap encode ++ rest) = execAll is ∘ setPort rest :=
      funext fun s' => ih tail (s := setPort (is.flatMap encode ++ rest) s') rfl
    calc deviceRun (is.length + 1) s
        = andThen (exec i s) (deviceRun is.length ∘ setPort (is.flatMap encode ++ rest)) := by
          rw [deviceRun_succ, stepped, exec_setPort, andThen_onNext]
      _ = andThen (exec i s) (execAll is ∘ setPort rest) := by rw [remaining]
      _ = execAll (i :: is) (setPort rest s) := by rw [execAll_cons, exec_setPort, andThen_onNext]

/-- Settles O10: the case of nothing behind the packets. -/
theorem packetsExecuteInArrivalOrder : Obligations.PacketsExecuteInArrivalOrder := by
  intro is s wf port
  exact deviceRun_of_packets wf (by rw [port, List.append_nil])

/-! ## The stream over a run (rule R53) -/

/-- APPEND on the newest 100 bits of a run gives the newest 100 bits of the longer run. -/
theorem appendBit_newest (bits : List Bool) (bit : Bool) :
    appendBit bit (bits.drop (bits.length - 100)) = (bits ++ [bit]).drop ((bits ++ [bit]).length - 100) := by
  have bound : (bits.drop (bits.length - 100)).length ≤ 100 := by rw [List.length_drop]; omega
  rw [appendBit_of_le bound, List.length_append, List.length_singleton, List.drop_append_of_le_length (by omega)]
  congr 1
  by_cases room : bits.length < 100
  · rw [if_pos (by rw [List.length_drop]; omega)]
    congr 1
    omega
  · rw [if_neg (by rw [List.length_drop]; omega), List.drop_drop]
    congr 1
    omega

/-- Settles O50, by induction on the run from its first bit to its last. -/
theorem streamHoldsTheNewestHundredBits : Obligations.StreamHoldsTheNewestHundredBits := by
  intro bits
  induction bits using List.reverseRecOn with
  | nil => rfl
  | append_singleton bits bit ih => rw [List.foldl_append, ih, List.foldl_cons, List.foldl_nil, appendBit_newest]

end Sys2Proof.Machine

/-! ## What the decoder accepts is the encoding (rules R70 to R80)

The bytes of a packet are the run of its fields: `drop_eq_field`, `drop_eq_byte` and `drop_eq_slice` split a packet at
a field, and a decoded operand is written back as the bytes it was read from. -/

namespace Sys2Proof

/-- Settles O1: the encoder's packet decodes to its command, whatever follows it. -/
theorem decodeOfEncodeIsTheCommand : Obligations.DecodeOfEncodeIsTheCommand :=
  fun _ rest wf => decode_encode wf rest

/-! ### Fields of bytes that agree up to a place -/

section Agree
variable {p q : List Byte} {n : Nat}

theorem slice_congr (h : p.take n = q.take n) {lo k : Nat} (inside : lo + k ≤ n) : slice p lo k = slice q lo k := by
  have shorter : p.take (lo + k) = q.take (lo + k) := by
    simpa only [List.take_take, Nat.min_eq_left inside] using congrArg (List.take (lo + k)) h
  have within (bs : List Byte) : slice bs lo k = (bs.take (lo + k)).drop lo := by
    rw [slice, List.drop_take, Nat.add_sub_cancel_left]
  rw [within, within, shorter]

theorem fieldNat_congr (h : p.take n = q.take n) {lo k : Nat} (inside : lo + k ≤ n) :
    fieldNat p lo k = fieldNat q lo k :=
  congrArg leValue (slice_congr h inside)

theorem byteAt_congr (h : p.take n = q.take n) {i : Nat} (inside : i < n) : byteAt p i = byteAt q i := by
  have within (bs : List Byte) : byteAt bs i = byteAt (bs.take n) i := by
    simp [byteAt, List.getElem?_take_of_lt inside]
  rw [within p, within q, h]

/-- The length fields of a packet lie inside it, so bytes that agree as far as the packet goes have its length. -/
theorem packetLength_congr (f : Format) (h : p.take n = q.take n) (whole : packetLength f p ≤ n) :
    packetLength f p = packetLength f q := by
  cases f with
  | fmtN => rfl
  | fmtT => rfl
  | fmtS =>
    simp only [packetLength] at whole ⊢
    rw [fieldNat_congr h (by omega)]
  | fmtD =>
    simp only [packetLength] at whole ⊢
    rw [← fieldNat_congr h (by omega : 10 + 2 ≤ n), ← byteAt_congr h (by omega)]
  | fmtF =>
    simp only [packetLength] at whole ⊢
    rw [fieldNat_congr h (by omega)]

end Agree

theorem byteAt_take (bs : List Byte) {n i : Nat} (inside : i < n) : byteAt (bs.take n) i = byteAt bs i :=
  byteAt_congr (n := n) (by simp) inside

theorem fieldNat_take (bs : List Byte) {n lo k : Nat} (inside : lo + k ≤ n) :
    fieldNat (bs.take n) lo k = fieldNat bs lo k :=
  fieldNat_congr (n := n) (by simp) inside

theorem packetLength_take {f : Format} {bs : List Byte} {n : Nat} (whole : packetLength f bs ≤ n) :
    packetLength f (bs.take n) = packetLength f bs :=
  (packetLength_congr f (by simp) whole).symm

/-! ### What the decoder answers, by the opening byte -/

theorem decode_of_reserved {b : Byte} (h : opcodeOf b = none) (tail : List Byte) :
    decode (b :: tail) = .reject .reservedOpcode tail := by
  simp only [decode, h]

theorem decode_of_short {bs : List Byte} {b : Byte} {o : Opcode} (opening : bs.head? = some b)
    (legal : opcodeOf b = some o) (short : bs.length < packetLength (opcodeFormat o) bs) :
    decode bs = .reject .truncated [] := by
  obtain ⟨tail, rfl⟩ := List.head?_eq_some_iff.mp opening
  simp only [decode, legal, if_pos short]

section Whole
variable {bs : List Byte} {o : Opcode} (opening : bs.head? = some (opcodeByte o))
  (whole : packetLength (opcodeFormat o) bs ≤ bs.length)
include opening whole

theorem decode_of_read {i : Instr} (read : decodeWhole o (bs.take (packetLength (opcodeFormat o) bs)) = .ok i) :
    decode bs = .command i (bs.drop (packetLength (opcodeFormat o) bs)) := by
  obtain ⟨tail, rfl⟩ := List.head?_eq_some_iff.mp opening
  simp only [decode, opcodeOf_opcodeByte, if_neg (not_lt.mpr whole), read]

theorem decode_of_malformed {why : Reject}
    (malformed : decodeWhole o (bs.take (packetLength (opcodeFormat o) bs)) = .error why) :
    decode bs = .reject why (bs.drop (packetLength (opcodeFormat o) bs)) := by
  obtain ⟨tail, rfl⟩ := List.head?_eq_some_iff.mp opening
  simp only [decode, opcodeOf_opcodeByte, if_neg (not_lt.mpr whole), malformed]

end Whole

/-- A command is decoded from a whole packet of a legal opcode. -/
theorem decode_command_cases {bs rest : List Byte} {i : Instr} (h : decode bs = .command i rest) :
    ∃ o, bs.head? = some (opcodeByte o) ∧ packetLength (opcodeFormat o) bs ≤ bs.length ∧
      decodeWhole o (bs.take (packetLength (opcodeFormat o) bs)) = .ok i ∧
      rest = bs.drop (packetLength (opcodeFormat o) bs) := by
  cases bs with
  | nil => cases h
  | cons b tail =>
    cases legal : opcodeOf b with
    | none => rw [decode_of_reserved legal] at h; cases h
    | some o =>
      have opening : (b :: tail).head? = some (opcodeByte o) := congrArg some (opcodeByte_of_opcodeOf legal)
      by_cases short : (b :: tail).length < packetLength (opcodeFormat o) (b :: tail)
      · rw [decode_of_short rfl legal short] at h
        cases h
      · have whole := not_lt.mp short
        cases read : decodeWhole o ((b :: tail).take (packetLength (opcodeFormat o) (b :: tail))) with
        | ok i => rw [decode_of_read opening whole read] at h; cases h; exact ⟨o, opening, whole, read, rfl⟩
        | error why => rw [decode_of_malformed opening whole read] at h; cases h

/-! ### A packet is the run of its fields -/

theorem drop_eq_slice (p : List Byte) (lo n : Nat) : p.drop lo = slice p lo n ++ p.drop (lo + n) := by
  rw [slice, ← List.drop_drop, List.take_append_drop]

theorem drop_eq_field {p : List Byte} {lo n : Nat} (h : lo + n ≤ p.length) :
    p.drop lo = leBytes n (fieldNat p lo n) ++ p.drop (lo + n) := by
  have length : (slice p lo n).length = n := by rw [slice_length]; omega
  calc p.drop lo = slice p lo n ++ p.drop (lo + n) := drop_eq_slice p lo n
    _ = leBytes (slice p lo n).length (leValue (slice p lo n)) ++ p.drop (lo + n) := by rw [leBytes_leValue]
    _ = leBytes n (fieldNat p lo n) ++ p.drop (lo + n) := by rw [length, fieldNat]

theorem drop_eq_byte {p : List Byte} {lo : Nat} (h : lo < p.length) : p.drop lo = byteAt p lo :: p.drop (lo + 1) := by
  rw [List.drop_eq_getElem_cons h, byteAt, List.getD_eq_getElem p 0 h]

theorem eq_opening_cons {p : List Byte} {b : Byte} (h : p.head? = some b) : p = b :: p.drop 1 := by
  obtain ⟨tail, rfl⟩ := List.head?_eq_some_iff.mp h
  rfl

/-! ### A decoded operand is the field it was read from -/

theorem toNat_ofNat_fieldNat (p : List Byte) (lo n : Nat) {w : Nat} (hw : w = 8 * n) :
    (BitVec.ofNat w (fieldNat p lo n)).toNat = fieldNat p lo n := by
  have fits : fieldNat p lo n < 2 ^ w := by simpa [hw, pow_mul] using fieldNat_lt p lo n
  rw [BitVec.toNat_ofNat, Nat.mod_eq_of_lt fits]

theorem flagByte_of_reserved_high : ∀ b : Byte, b.extractLsb' 4 4 = 0 →
    flagByte (b.getLsbD 0) (b.getLsbD 1) (b.getLsbD 2) (b.getLsbD 3) = b := by
  decide

theorem flagByte_of_reserved : ∀ b : Byte, b.extractLsb' 3 5 = 0 →
    flagByte (b.getLsbD 0) (b.getLsbD 1) (b.getLsbD 2) false = b := by
  decide

theorem flatMap_pixelsOf {bs : List Byte} {k : Nat} (h : bs.length = 3 * k) :
    (pixelsOf bs).flatMap pixelBytes = bs := by
  induction bs using pixelsOf.induct generalizing k with
  | case1 r g b rest ih =>
    have shorter : rest.length = 3 * (k - 1) := by simp only [List.length_cons] at h; omega
    rw [pixelsOf, List.flatMap_cons, ih shorter]
    rfl
  | case2 bs noTriple =>
    match bs, h with
    | [], _ => rfl
    | [_], h => simp only [List.length_cons, List.length_nil] at h; omega
    | [_, _], h => simp only [List.length_cons, List.length_nil] at h; omega
    | r :: g :: b :: rest, _ => exact absurd rfl (noTriple r g b rest)

/-! ### The formats -/

section Formats
variable {p : List Byte}

theorem encode_decodeS (opening : p.head? = some (opcodeByte .txStart)) (length : p.length = packetLength .fmtS p) :
    encode (decodeS p) = p := by
  have total : p.length = 15 + fieldNat p 13 2 := length
  have codeLength : (slice p 15 (fieldNat p 13 2)).length = fieldNat p 13 2 := by rw [slice_length]; omega
  have noMore : p.drop (15 + fieldNat p 13 2) = [] := List.drop_of_length_le total.le
  symm
  calc p = opcodeByte .txStart :: p.drop 1 := eq_opening_cons opening
    _ = opcodeByte .txStart :: (leBytes 8 (fieldNat p 1 8) ++ (leBytes 4 (fieldNat p 9 4) ++
          (leBytes 2 (fieldNat p 13 2) ++ slice p 15 (fieldNat p 13 2)))) := by
      rw [drop_eq_field (n := 8) (by omega), drop_eq_field (n := 4) (by omega), drop_eq_field (n := 2) (by omega),
        drop_eq_slice p _ (fieldNat p 13 2), noMore, List.append_nil]
    _ = encode (decodeS p) := by
      simp only [encode, decodeS, instrOpcode, operandBytes, codeLength, toNat_ofNat_fieldNat p _ 8 rfl,
        toNat_ofNat_fieldNat p _ 4 rfl, List.append_assoc]

theorem encode_decodeT (opening : p.head? = some (opcodeByte .txTick)) (length : p.length = packetLength .fmtT p) :
    encode (decodeT p) = p := by
  have total : p.length = 9 := length
  have noMore : p.drop 9 = [] := List.drop_of_length_le total.le
  symm
  calc p = opcodeByte .txTick :: p.drop 1 := eq_opening_cons opening
    _ = opcodeByte .txTick :: leBytes 8 (fieldNat p 1 8) := by
      rw [drop_eq_field (n := 8) (by omega), noMore, List.append_nil]
    _ = encode (decodeT p) := by
      simp only [encode, decodeT, instrOpcode, operandBytes, toNat_ofNat_fieldNat p _ 8 rfl]

/-- Everything format D accepts: no reserved flag bit, and an identifier length of 0 without HASCID (rule R79). -/
theorem decodeD_ok_cases {i : Instr} (h : decodeD p = .ok i) :
    (byteAt p 1).extractLsb' 4 4 = 0 ∧
    ((byteAt p 1).getLsbD 3 = false → (byteAt p (12 + fieldNat p 10 2)).toNat = 0) ∧
    i = .rxStart ((byteAt p 1).getLsbD 0) ((byteAt p 1).getLsbD 1) ((byteAt p 1).getLsbD 2)
      (if (byteAt p 1).getLsbD 3 then
        some (slice p (13 + fieldNat p 10 2) (byteAt p (12 + fieldNat p 10 2)).toNat) else none)
      (BitVec.ofNat 16 (fieldNat p 2 2)) (BitVec.ofNat 16 (fieldNat p 4 2)) (BitVec.ofNat 32 (fieldNat p 6 4))
      (slice p 12 (fieldNat p 10 2)) := by
  simp only [decodeD] at h
  split at h
  · cases h
  · next reserved =>
    split at h
    · cases h
    · next unflagged =>
      cases h
      exact ⟨not_ne_iff.mp reserved, fun noCid => by_contra fun ne => unflagged ⟨noCid, ne⟩, rfl⟩

/-- Everything format F accepts: no reserved flag bit (rule R79). -/
theorem decodeF_ok_cases {i : Instr} (h : decodeF p = .ok i) :
    (byteAt p 9).extractLsb' 3 5 = 0 ∧
    i = .rxFrame (BitVec.ofNat 64 (fieldNat p 1 8)) ((byteAt p 9).getLsbD 0) ((byteAt p 9).getLsbD 1)
      ((byteAt p 9).getLsbD 2) (pixelsOf (slice p 14 (3 * fieldNat p 10 4))) := by
  simp only [decodeF] at h
  split at h
  · cases h
  · next reserved => cases h; exact ⟨not_ne_iff.mp reserved, rfl⟩

theorem encode_of_decodeD {i : Instr} (opening : p.head? = some (opcodeByte .rxStart))
    (length : p.length = packetLength .fmtD p) (h : decodeD p = .ok i) : encode i = p := by
  obtain ⟨reserved, unflagged, rfl⟩ := decodeD_ok_cases h
  have total : p.length = 13 + fieldNat p 10 2 + (byteAt p (12 + fieldNat p 10 2)).toNat := length
  have flags := flagByte_of_reserved_high (byteAt p 1) reserved
  generalize explenField : fieldNat p 10 2 = explen at *
  generalize cidlenField : byteAt p (12 + explen) = cidlen at *
  generalize cidRead : (if (byteAt p 1).getLsbD 3 then some (slice p (13 + explen) cidlen.toNat) else none) = cid
  have expectedLength : (slice p 12 explen).length = explen := by rw [slice_length]; omega
  have isSome : cid.isSome = (byteAt p 1).getLsbD 3 := by
    rw [← cidRead]
    cases (byteAt p 1).getLsbD 3 <;> rfl
  have cidBytes : cid.getD [] = p.drop (13 + explen) := by
    rw [← cidRead]
    cases hasCid : (byteAt p 1).getLsbD 3 with
    | true => exact List.take_of_length_le (by rw [List.length_drop]; omega)
    | false => exact (List.drop_of_length_le (by have := unflagged hasCid; omega)).symm
  have cidLength : BitVec.ofNat 8 (cid.getD []).length = cidlen := by
    rw [cidBytes, List.length_drop, total, Nat.add_sub_cancel_left, BitVec.ofNat_toNat, BitVec.setWidth_eq]
  symm
  calc p = opcodeByte .rxStart :: p.drop 1 := eq_opening_cons opening
    _ = opcodeByte .rxStart :: byteAt p 1 :: (leBytes 2 (fieldNat p 2 2) ++ (leBytes 2 (fieldNat p 4 2) ++
          (leBytes 4 (fieldNat p 6 4) ++ (leBytes 2 explen ++ (slice p 12 explen ++ cidlen :: cid.getD []))))) := by
      rw [drop_eq_byte (by omega), drop_eq_field (n := 2) (by omega), drop_eq_field (n := 2) (by omega),
        drop_eq_field (n := 4) (by omega), drop_eq_field (n := 2) (by omega), explenField, drop_eq_slice p _ explen,
        drop_eq_byte (by omega), cidlenField, cidBytes, Nat.add_right_comm 12 explen 1]
    _ = encode _ := by
      simp only [encode, instrOpcode, operandBytes, isSome, flags, expectedLength, cidLength,
        toNat_ofNat_fieldNat p _ 2 rfl, toNat_ofNat_fieldNat p _ 4 rfl, List.append_assoc]

theorem encode_of_decodeF {i : Instr} (opening : p.head? = some (opcodeByte .rxFrame))
    (length : p.length = packetLength .fmtF p) (h : decodeF p = .ok i) : encode i = p := by
  obtain ⟨reserved, rfl⟩ := decodeF_ok_cases h
  have total : p.length = 14 + 3 * fieldNat p 10 4 := length
  have noMore : p.drop (14 + 3 * fieldNat p 10 4) = [] := List.drop_of_length_le total.le
  have pixelBytesLength : (slice p 14 (3 * fieldNat p 10 4)).length = 3 * fieldNat p 10 4 := by rw [slice_length]; omega
  have pixels := flatMap_pixelsOf pixelBytesLength
  have count : (pixelsOf (slice p 14 (3 * fieldNat p 10 4))).length = fieldNat p 10 4 := by
    have := flatMap_pixelBytes_length (pixelsOf (slice p 14 (3 * fieldNat p 10 4)))
    rw [pixels, pixelBytesLength] at this
    omega
  symm
  calc p = opcodeByte .rxFrame :: p.drop 1 := eq_opening_cons opening
    _ = opcodeByte .rxFrame :: (leBytes 8 (fieldNat p 1 8) ++ byteAt p 9 ::
          (leBytes 4 (fieldNat p 10 4) ++ slice p 14 (3 * fieldNat p 10 4))) := by
      rw [drop_eq_field (n := 8) (by omega), drop_eq_byte (by omega), drop_eq_field (n := 4) (by omega),
        drop_eq_slice p _ (3 * fieldNat p 10 4), noMore, List.append_nil]
    _ = encode _ := by
      simp only [encode, instrOpcode, operandBytes, flagByte_of_reserved _ reserved, count, pixels,
        toNat_ofNat_fieldNat p _ 8 rfl]

theorem encode_of_decodeWhole {o : Opcode} {i : Instr} (opening : p.head? = some (opcodeByte o))
    (length : p.length = packetLength (opcodeFormat o) p) (h : decodeWhole o p = .ok i) : encode i = p := by
  have alone (one : p.length = 1) : [opcodeByte o] = p := by
    rw [eq_opening_cons opening, List.drop_of_length_le one.le]
  cases o with
  | txStart => cases h; exact encode_decodeS opening length
  | txTick => cases h; exact encode_decodeT opening length
  | rxStart => exact encode_of_decodeD opening length h
  | rxFrame => exact encode_of_decodeF opening length h
  | _ => cases h; exact alone length

end Formats

/-- Settles O2: the packet was measured and read whole, and what is read from it is written back by the encoder. -/
theorem decodedPacketIsTheEncoding : Obligations.DecodedPacketIsTheEncoding := by
  intro bs i rest h
  obtain ⟨o, opening, whole, read, rfl⟩ := decode_command_cases h
  have packetOpens : (bs.take (packetLength (opcodeFormat o) bs)).head? = some (opcodeByte o) := by
    have pos : 0 < packetLength (opcodeFormat o) bs := by cases o <;> simp only [packetLength, opcodeFormat] <;> omega
    rw [List.head?_take, if_neg pos.ne', opening]
  have measured : (bs.take (packetLength (opcodeFormat o) bs)).length
      = packetLength (opcodeFormat o) (bs.take (packetLength (opcodeFormat o) bs)) := by
    rw [packetLength_take le_rfl, List.length_take_of_le whole]
  refine ⟨wf_of_decode h, ?_⟩
  rw [encode_of_decodeWhole packetOpens measured read, List.take_append_drop]

/-! ### What the decoder refuses (rules R78, R79) -/

/-- The opcode map's bytes are 0x01 to 0x05 and 0x11 to 0x15 (rule R77). -/
theorem opcodeOf_eq_none_iff (b : Byte) :
    opcodeOf b = none ↔ b.toNat = 0 ∨ (6 ≤ b.toNat ∧ b.toNat ≤ 0x10) ∨ 0x16 ≤ b.toNat := by
  simp only [opcodeOf, List.find?_eq_none, opcodeRows, List.forall_mem_cons, opcodeByte, beq_iff_eq,
    ← BitVec.toNat_inj]
  simp
  omega

theorem decodeD_of_reservedFlag {p : List Byte} (reserved : (byteAt p 1).extractLsb' 4 4 ≠ 0) :
    decodeD p = .error .reservedFlag :=
  if_pos reserved

theorem decodeD_of_cidWithoutFlag {p : List Byte} (legal : (byteAt p 1).extractLsb' 4 4 = 0)
    (unflagged : (byteAt p 1).getLsbD 3 = false) (cid : (byteAt p (12 + fieldNat p 10 2)).toNat ≠ 0) :
    decodeD p = .error .cidWithoutFlag :=
  (if_neg (not_not.mpr legal)).trans (if_pos ⟨unflagged, cid⟩)

theorem decodeF_of_reservedFlag {p : List Byte} (reserved : (byteAt p 9).extractLsb' 3 5 ≠ 0) :
    decodeF p = .error .reservedFlag :=
  if_pos reserved

/-- Settles O4: each check reads bytes inside the packet, which are the same bytes at the port. -/
theorem malformedPacketIsRejectedByName : Obligations.MalformedPacketIsRejectedByName := by
  intro bs
  have lengthD : packetLength (opcodeFormat .rxStart) bs
      = 13 + fieldNat bs 10 2 + (byteAt bs (12 + fieldNat bs 10 2)).toNat := rfl
  have lengthF : packetLength (opcodeFormat .rxFrame) bs = 14 + 3 * fieldNat bs 10 4 := rfl
  refine ⟨fun opening whole reserved => ?_, fun opening whole legal unflagged cid => ?_,
    fun opening whole reserved => ?_⟩
  · refine decode_of_malformed (o := .rxStart) opening whole (decodeD_of_reservedFlag ?_)
    rwa [byteAt_take bs (by omega)]
  · have cidlen : (byteAt bs (12 + fieldNat bs 10 2)).toNat ≠ 0 := fun zero => cid (BitVec.eq_of_toNat_eq zero)
    refine decode_of_malformed (o := .rxStart) opening whole (decodeD_of_cidWithoutFlag ?_ ?_ ?_)
    · rwa [byteAt_take bs (by omega)]
    · rwa [byteAt_take bs (by omega)]
    · rwa [fieldNat_take bs (by omega), byteAt_take bs (by omega)]
  · refine decode_of_malformed (o := .rxFrame) opening whole (decodeF_of_reservedFlag ?_)
    rwa [byteAt_take bs (by omega)]

end Sys2Proof

namespace Sys2Proof.Machine

/-! ### What the step does with a packet that is no command (rules R70, R78, R79, R191) -/

/-- Settles O8: the fetch finds the packet illegal whatever else the port holds. -/
theorem stepRefusesAPacketThatIsNoCommand : Obligations.StepRefusesAPacketThatIsNoCommand := by
  intro s why rest rejected notTruncated
  rw [step, fetch_reject rejected notTruncated]
  rfl

/-- Settles O3: the decoder rejects the packet by its opening byte alone, and the step refuses it. -/
theorem reservedOpcodeIsRefused : Obligations.ReservedOpcodeIsRefused := by
  refine ⟨opcodeOf_eq_none_iff, fun b rest s reserved port => ?_⟩
  have rejected : decode s.port = .reject .reservedOpcode rest := by rw [port, decode_of_reserved reserved]
  exact ⟨rejected, stepRefusesAPacketThatIsNoCommand s _ rest rejected nofun⟩

/-- An unfinished packet is waited for until the input has ended (rules R70, R79; log entry 2). -/
theorem fetch_truncated {s : State} {rest : List Byte} (arrived : s.port ≠ [])
    (h : decode s.port = .reject .truncated rest) :
    fetch s = if s.inputEnded then .illegal .truncated rest else .wait := by
  simp [fetch, arrived, h]

/-- A proper beginning of a packet does not look whole: if it did, the packet's length would lie inside it. -/
theorem length_take_lt_packetLength {f : Format} {p : List Byte} (whole : packetLength f p = p.length) {n : Nat}
    (proper : n < p.length) : (p.take n).length < packetLength f (p.take n) := by
  by_contra looksWhole
  have short : (p.take n).length = n := List.length_take_of_le proper.le
  have same := packetLength_congr f (p := p.take n) (q := p) (n := n) (by simp) (by omega)
  omega

/-- Settles O5: the decoder finds the packet short, and the end-of-input mark decides what the fetch makes of that. -/
theorem unfinishedPacketWaitsOrIsRefused : Obligations.UnfinishedPacketWaitsOrIsRefused := by
  refine ⟨fun s b o opening legal short => ?_, fun i n wf pos proper => ?_⟩
  · have rejected := decode_of_short opening legal short
    have arrived : s.port ≠ [] := by rintro empty; simp [empty] at opening
    refine ⟨rejected, fun goesOn => ?_, fun ended => ?_⟩
    · rw [step, fetch_truncated arrived rejected, if_neg (by simp [goesOn])]
      rfl
    · rw [step, fetch_truncated arrived rejected, if_pos ended]
      rfl
  · have whole : packetLength (opcodeFormat (instrOpcode i)) (encode i) = (encode i).length := by
      simpa using packetLength_encode wf []
    refine ⟨opcodeByte (instrOpcode i), instrOpcode i, ?_, opcodeOf_opcodeByte _,
      length_take_lt_packetLength whole proper⟩
    rw [List.head?_take, if_neg pos.ne']
    rfl

end Sys2Proof.Machine

/-! ## What any command does to the port and the phases (rules R81, R86) -/

namespace Sys2Proof.Machine

/-- What a command that goes on leaves alone and what it puts out: the model's own port, end mark and parameters stay,
and a response is present (rule R81; log entries 1, 2, 10). -/
structure Answers (s s' : State) : Prop where
  port : s'.port = s.port
  inputEnded : s'.inputEnded = s.inputEnded
  config : s'.config = s.config
  response : s'.response.isSome = true

theorem exec_txStart_answers {now : BitVec 64} {fps : BitVec 32} {code : List Symbol} {s s' : State}
    (hs : exec (.txStart now fps code) s = .next s') : Answers s s' := by
  rw [exec_txStart] at hs
  cases hs
  split <;> exact ⟨rfl, rfl, rfl, rfl⟩

theorem exec_txTick_answers {ts : BitVec 64} {s s' : State} (hs : exec (.txTick ts) s = .next s') : Answers s s' := by
  rcases exec_txTick_cases hs with ⟨-, rfl⟩ | ⟨-, -, -, -, -, rfl⟩ | ⟨-, -, -, -, -, bit, -, rfl⟩ |
    ⟨-, -, -, -, -, -, -, idx, -, rfl⟩ <;>
  exact ⟨rfl, rfl, rfl, rfl⟩

theorem exec_rxStart_answers {video draw grant : Bool} {cid : Option (List Byte)} {srcw srch : BitVec 16}
    {thr : BitVec 32} {expected : List Symbol} {s s' : State}
    (hs : exec (.rxStart video draw grant cid srcw srch thr expected) s = .next s') : Answers s s' := by
  rw [exec_rxStart] at hs
  cases hs
  dsimp only
  split_ifs <;> exact ⟨rfl, rfl, rfl, rfl⟩

theorem exec_rxFrame_answers {ts : BitVec 64} {ready ctx fail : Bool} {px : List Pixel} {s s' : State}
    (hs : exec (.rxFrame ts ready ctx fail px) s = .next s') : Answers s s' := by
  rcases exec_rxFrame_cases hs with ⟨-, rfl⟩ | ⟨-, -, -, rfl⟩ |
    ⟨-, -, -, -, b, rx0, logged, -, rx, -, ⟨-, rfl⟩ | ⟨-, closed, -, ⟨-, rfl⟩ | ⟨-, -, rfl⟩⟩⟩ <;>
  exact ⟨rfl, rfl, rfl, rfl⟩

theorem exec_answers {i : Instr} {s s' : State} (hs : exec i s = .next s') : Answers s s' := by
  cases i with
  | txStart now fps code => exact exec_txStart_answers hs
  | txTick ts => exact exec_txTick_answers hs
  | rxStart video draw grant cid srcw srch thr expected => exact exec_rxStart_answers hs
  | rxFrame ts ready ctx fail px => exact exec_rxFrame_answers hs
  | rxStop => rw [exec_rxStop] at hs; cases hs; exact ⟨rfl, rfl, rfl, rfl⟩
  | _ => cases hs; exact ⟨rfl, rfl, rfl, rfl⟩

/-- Settles O11: the model's own fields stay and a response is present, command by command. -/
theorem commandsLeaveThePortAndAnswer : Obligations.CommandsLeaveThePortAndAnswer := by
  intro i s s' hs
  obtain ⟨port, inputEnded, config, response⟩ := exec_answers hs
  exact ⟨port, inputEnded, config, response⟩

/-! ### TX_PHASE (rule R86 line 1) -/

/-- `TX.START` begins a calibration or changes no register. -/
theorem exec_txStart_phase {now : BitVec 64} {fps : BitVec 32} {code : List Symbol} {s s' : State}
    (hs : exec (.txStart now fps code) s = .next s') :
    (isBinaryCode code = true ∧ s'.tx.phase = .cal) ∨ s'.tx = s.tx := by
  rw [exec_txStart] at hs
  cases hs
  split
  · next binary => exact .inl ⟨binary, rfl⟩
  · exact .inr rfl

/-- Of the callbacks, only the 60th of a calibration moves the phase. -/
theorem exec_txTick_phase {ts : BitVec 64} {s s' : State} (hs : exec (.txTick ts) s = .next s') :
    (s.tx.phase = .cal ∧ s'.tx.phase = .run ∧ s.tx.calCount = 59) ∨ s'.tx.phase = s.tx.phase := by
  rcases exec_txTick_cases hs with ⟨-, rfl⟩ | ⟨-, -, -, -, -, rfl⟩ | ⟨-, cal, -, -, count, bit, -, rfl⟩ |
    ⟨-, -, -, -, -, -, -, idx, -, rfl⟩
  · exact .inr rfl
  · exact .inr rfl
  · exact .inl ⟨cal, rfl, by omega⟩
  · rw [countTick_phase]
    split <;> exact .inr rfl

/-- Settles O26: only `TX.START`, `TX.TICK` and `TX.STOP` write TX_PHASE, and RX leaves the TX instance alone. -/
theorem txPhaseMovesOnlyByItsTransitions : Obligations.TxPhaseMovesOnlyByItsTransitions := by
  intro i s s' _ hs moved
  cases i with
  | txStart now fps code =>
    obtain ⟨binary, cal⟩ | same := exec_txStart_phase hs
    · have source : s.tx.phase = .idle ∨ s.tx.phase = .run := by
        cases phase : s.tx.phase with
        | idle => exact .inl rfl
        | run => exact .inr rfl
        | cal => exact absurd (cal.trans phase.symm) moved
      exact .inl ⟨source, cal, now, fps, code, rfl, binary⟩
    · exact absurd (congrArg TxState.phase same) moved
  | txTick ts =>
    obtain ⟨cal, run, count⟩ | same := exec_txTick_phase hs
    · exact .inr (.inl ⟨cal, run, count, ts, rfl⟩)
    · exact absurd same moved
  | txStop => cases hs; exact .inr (.inr ⟨rfl, rfl⟩)
  | txColor => cases hs; exact absurd rfl moved
  | txStatus => cases hs; exact absurd rfl moved
  | _ =>
    obtain ⟨tx, -⟩ := exec_keeps_tx (by simp [isTx, instrOpcode, opcodeByte]) hs
    exact absurd (congrArg TxState.phase tx) moved

/-! ### RX_ACTIVE (rule R86 line 2) -/

/-- What `RX.START` does to RX_ACTIVE: past its surface check the platform's answer decides, or nothing changes. -/
theorem exec_rxStart_active {video draw grant : Bool} {cid : Option (List Byte)} {srcw srch : BitVec 16}
    {thr : BitVec 32} {expected : List Symbol} {s s' : State}
    (hs : exec (.rxStart video draw grant cid srcw srch thr expected) s = .next s') :
    (video = true ∧ draw = true ∧ s'.rx.active = grant) ∨ s'.rx.active = s.rx.active := by
  rw [exec_rxStart] at hs
  cases hs
  dsimp only
  split
  · exact .inr rfl
  · next surface =>
    obtain ⟨hvideo, hdraw⟩ : video = true ∧ draw = true := by simpa using surface
    split
    · exact .inr rfl
    · refine .inl ⟨hvideo, hdraw, ?_⟩
      cases grant with
      | true => rfl
      | false => cases active : s.rx.active <;> simp [active]

/-- What `RX.FRAME` does to RX_ACTIVE: a ready frame that reports a match ends the run, or nothing changes. -/
theorem exec_rxFrame_active {ts : BitVec 64} {ready ctx fail : Bool} {px : List Pixel} {s s' : State}
    (hs : exec (.rxFrame ts ready ctx fail px) s = .next s') :
    (ctx = true ∧ ready = true ∧ s'.rx.active = false ∧ ∃ snapshot, Event.matched snapshot ∈ s'.events) ∨
      s'.rx.active = s.rx.active := by
  rcases exec_rxFrame_cases hs with ⟨-, rfl⟩ | ⟨-, -, -, rfl⟩ |
    ⟨-, hctx, hready, -, b, rx0, logged, takes, rx, rfl, outcome⟩
  · exact .inr rfl
  · exact .inr rfl
  · have begun : rx0.active = s.rx.active := by rcases takes with ⟨-, -, rfl, -⟩ | ⟨-, -, -, rfl, -⟩ <;> rfl
    rcases outcome with ⟨-, rfl⟩ | ⟨-, closed, rfl, ⟨-, rfl⟩ | ⟨-, -, rfl⟩⟩
    · exact .inr (by simpa using begun)
    · exact .inr (by simpa using begun)
    · exact .inl ⟨hctx, hready, rfl, _, List.mem_append_right _ List.mem_cons_self⟩

/-- Everything a command that goes on can do to RX_ACTIVE. -/
theorem exec_active_cases {i : Instr} {s s' : State} (hs : exec i s = .next s') :
    s'.rx.active = s.rx.active ∨
    (s'.rx.active = true ∧ ∃ cid w h thr e, i = .rxStart true true true cid w h thr e) ∨
    (s'.rx.active = false ∧ (i = .rxStop ∨ (∃ cid w h thr e, i = .rxStart true true false cid w h thr e) ∨
      ∃ ts fail px snapshot, i = .rxFrame ts true true fail px ∧ Event.matched snapshot ∈ s'.events)) := by
  cases i with
  | rxStart video draw grant cid srcw srch thr expected =>
    obtain ⟨rfl, rfl, active⟩ | same := exec_rxStart_active hs
    · cases grant with
      | true => exact .inr (.inl ⟨active, cid, srcw, srch, thr, expected, rfl⟩)
      | false => exact .inr (.inr ⟨active, .inr (.inl ⟨cid, srcw, srch, thr, expected, rfl⟩)⟩)
    · exact .inl same
  | rxFrame ts ready ctx fail px =>
    obtain ⟨rfl, rfl, stopped, snapshot, matched⟩ | same := exec_rxFrame_active hs
    · exact .inr (.inr ⟨stopped, .inr (.inr ⟨ts, fail, px, snapshot, rfl, matched⟩)⟩)
    · exact .inl same
  | rxStop => rw [exec_rxStop] at hs; cases hs; exact .inr (.inr ⟨rfl, .inl rfl⟩)
  | rxReset => cases hs; exact .inl rfl
  | rxStatus => cases hs; exact .inl rfl
  | _ =>
    obtain ⟨rx, -⟩ := exec_keeps_rx (by simp [isTx, instrOpcode, opcodeByte]) hs
    exact .inl (congrArg RxState.active rx)

/-- Settles O35: RX_ACTIVE differs after a command only in the last two of its cases. -/
theorem rxActivityMovesOnlyByItsTransitions : Obligations.RxActivityMovesOnlyByItsTransitions := by
  intro i s s' hs
  rcases exec_active_cases hs with same | ⟨active, start⟩ | ⟨stopped, stop⟩
  · rw [same]
    exact ⟨fun off on => absurd (off.symm.trans on) nofun, fun on off => absurd (off.symm.trans on) nofun⟩
  · exact ⟨fun _ _ => start, fun _ off => absurd (off.symm.trans active) nofun⟩
  · exact ⟨fun _ on => absurd (stopped.symm.trans on) nofun, fun _ _ => stop⟩

end Sys2Proof.Machine

/-! ## Sample packets and the numbers of the labels (95_test_vectors.md B1) -/

namespace Sys2Proof

/-- Settles O6: each packet is the encoding of its command. -/
theorem sampleWordsDecode : Obligations.SampleWordsDecode := by
  refine ⟨?txStart, ?txTick, ?rxStart, ?rxFrame, rfl, rfl, rfl, rfl, rfl, rfl⟩
  case txStart => exact decode_encode (i := .txStart 5000 0x003C0000 [0x30, 0x31]) rfl []
  case txTick => exact decode_encode (i := .txTick 960000) rfl [0x04]
  case rxStart =>
    exact decode_encode
      (i := .rxStart true true true (some [0x63, 0x61, 0x6D, 0x30]) 0 720 0x00640000 [0x31, 0x30]) rfl []
  case rxFrame => exact decode_encode (i := .rxFrame 40000 true true true [⟨1, 2, 3⟩]) rfl []

end Sys2Proof

/-! ## The assembler (rules R76, R82, R83)

The lexer on a pseudo-instruction: its operands are numerals, whose characters none of the lexer's marks are. Then the
operands by key: one lemma for each form says where its command's fields come from. -/

namespace Sys2Proof.Machine

/-! ### Lists of options -/

/-- A list on whose every element a partial function is defined. -/
theorem mapM_eq_some_map {α β : Type} {f : α → Option β} {g : α → β} {l : List α} (h : ∀ x ∈ l, f x = some (g x)) :
    l.mapM f = some (l.map g) := by
  induction l with
  | nil => rfl
  | cons x xs ih =>
    obtain ⟨head, tail⟩ := List.forall_mem_cons.mp h
    rw [List.mapM_cons, head, ih tail]
    rfl

/-- Every element of the values has a preimage in the list. -/
theorem exists_of_mem_mapM {α β : Type} {f : α → Option β} {l : List α} {ys : List β} (h : l.mapM f = some ys) :
    ∀ x ∈ l, ∃ y ∈ ys, f x = some y := by
  induction l generalizing ys with
  | nil => simp
  | cons x xs ih =>
    obtain ⟨y, hy, zs, hzs, rfl⟩ : ∃ y, f x = some y ∧ ∃ zs, xs.mapM f = some zs ∧ y :: zs = ys := by
      simpa [List.mapM_cons, Option.bind_eq_some_iff] using h
    intro x' hx'
    rcases List.mem_cons.mp hx' with rfl | later
    · exact ⟨y, List.mem_cons_self, hy⟩
    · obtain ⟨y', mem, hy'⟩ := ih hzs x' later
      exact ⟨y', List.mem_cons_of_mem y mem, hy'⟩

/-! ### Numerals -/

/-- A non-empty run of decimal digits. -/
def IsNumeral (cs : List Char) : Prop := cs ≠ [] ∧ ∀ x ∈ cs, x.isDigit = true

theorem isNumeral_of_asmNat {cs : List Char} {n : Nat} (h : asmNat cs = some n) : IsNumeral cs := by
  unfold asmNat at h
  split at h
  · next digits => simpa [IsNumeral] using digits
  · cases h

theorem isNumeral_of_asmNatBelow {cs : List Char} {bound n : Nat} (h : asmNatBelow bound cs = some n) :
    IsNumeral cs :=
  isNumeral_of_asmNat (Option.filter_eq_some_iff.mp h).1

theorem isNumeral_of_asmMicros {cs : List Char} {ts : BitVec 64} (h : asmMicros cs = some ts) : IsNumeral cs := by
  obtain ⟨n, below, -⟩ := Option.map_eq_some_iff.mp h
  exact isNumeral_of_asmNatBelow below

theorem isNumeral_of_asmChannel {cs : List Char} {v : Byte} (h : asmChannel cs = some v) : IsNumeral cs := by
  obtain ⟨n, below, -⟩ := Option.map_eq_some_iff.mp h
  exact isNumeral_of_asmNatBelow below

/-- A character that is no digit stands in no numeral. -/
theorem IsNumeral.not_mem {cs : List Char} (h : IsNumeral cs) {c : Char} (mark : c.isDigit = false) : c ∉ cs :=
  fun mem => absurd (h.2 c mem) (by simp [mark])

/-! ### Words -/

/-- A character that the lexer takes into a word as it is. -/
def isPlain (c : Char) : Bool := c ≠ asmQuote ∧ c ≠ '[' ∧ c ≠ ']' ∧ c ≠ ' '

theorem isPlain_of_isDigit {c : Char} (h : c.isDigit = true) : isPlain c = true := by
  have ne {mark : Char} (noDigit : mark.isDigit = false) : c ≠ mark := by
    rintro rfl
    rw [h] at noDigit
    cases noDigit
  exact decide_eq_true ⟨ne rfl, ne rfl, ne rfl, ne rfl⟩

theorem asmWords_plain {w : List Char} (plain : ∀ x ∈ w, isPlain x = true) (cur rest : List Char) :
    asmWords false false cur (w ++ rest) = asmWords false false (w.reverse ++ cur) rest := by
  induction w generalizing cur with
  | nil => rfl
  | cons x xs ih =>
    obtain ⟨head, tail⟩ := List.forall_mem_cons.mp plain
    obtain ⟨quote, opening, closing, space⟩ : x ≠ asmQuote ∧ x ≠ '[' ∧ x ≠ ']' ∧ x ≠ ' ' := of_decide_eq_true head
    simp [asmWords, quote, opening, closing, space, ih tail]

theorem asmWords_last {w : List Char} (ne : w ≠ []) (plain : ∀ x ∈ w, isPlain x = true) :
    asmWords false false [] w = [w] := by
  have h := asmWords_plain plain [] []
  simpa [asmWords, ne] using h

theorem asmWords_space {w : List Char} (ne : w ≠ []) (plain : ∀ x ∈ w, isPlain x = true) (rest : List Char) :
    asmWords false false [] (w ++ ' ' :: rest) = w :: asmWords false false [] rest := by
  have space : ' ' ≠ asmQuote := by decide
  rw [asmWords_plain plain]
  simp [asmWords, ne, space]

/-! ### Positional operands (rule R83) -/

/-- Operands as a pseudo-instruction's line writes them: a comma and a space after each but the last. -/
def operandText : List (List Char) → List Char
  | [] => []
  | [w] => w
  | w :: v :: ws => w ++ ',' :: ' ' :: operandText (v :: ws)

/-- The words of `operandText`: each operand but the last with its comma. -/
def operandWords : List (List Char) → List (List Char)
  | [] => []
  | [w] => [w]
  | w :: v :: ws => (w ++ [',']) :: operandWords (v :: ws)

theorem asmWords_operandText {ops : List (List Char)} (numerals : ∀ w ∈ ops, IsNumeral w) :
    asmWords false false [] (operandText ops) = operandWords ops := by
  induction ops using operandText.induct with
  | case1 => rfl
  | case2 w =>
    obtain ⟨ne, digits⟩ := numerals w (by simp)
    exact asmWords_last ne fun x hx => isPlain_of_isDigit (digits x hx)
  | case3 w v ws ih =>
    obtain ⟨⟨-, digits⟩, tail⟩ := List.forall_mem_cons.mp numerals
    have plain : ∀ x ∈ w ++ [','], isPlain x = true := by
      intro x hx
      rcases List.mem_append.mp hx with mem | comma
      · exact isPlain_of_isDigit (digits x mem)
      · rw [List.mem_singleton.mp comma]
        decide
    have text : operandText (w :: v :: ws) = (w ++ [',']) ++ ' ' :: operandText (v :: ws) := by simp [operandText]
    rw [text, asmWords_space (by simp) plain, ih tail, operandWords]

theorem asmJoin_cons (w : List Char) {ws : List (List Char)} (h : ws ≠ []) :
    asmJoin (w :: ws) = w ++ ' ' :: asmJoin ws := by
  obtain ⟨v, vs, rfl⟩ := List.exists_cons_of_ne_nil h
  rfl

theorem operandWords_ne_nil (w : List Char) (ws : List (List Char)) : operandWords (w :: ws) ≠ [] := by
  cases ws <;> simp [operandWords]

theorem asmJoin_operandWords (ops : List (List Char)) : asmJoin (operandWords ops) = operandText ops := by
  induction ops using operandText.induct with
  | case1 => rfl
  | case2 w => rfl
  | case3 w v ws ih => rw [operandWords, asmJoin_cons _ (operandWords_ne_nil v ws), ih, operandText]; simp

theorem splitAtChar_of_not_mem {c : Char} {w : List Char} (h : c ∉ w) : splitAtChar c w = [w] := by
  induction w with
  | nil => rfl
  | cons x xs ih =>
    simp [splitAtChar, Ne.symm (List.ne_of_not_mem_cons h), ih (List.not_mem_of_not_mem_cons h)]

theorem splitAtChar_append {c : Char} {w : List Char} (h : c ∉ w) (rest : List Char) :
    splitAtChar c (w ++ c :: rest) = w :: splitAtChar c rest := by
  induction w with
  | nil => simp [splitAtChar]
  | cons x xs ih =>
    simp [splitAtChar, Ne.symm (List.ne_of_not_mem_cons h), ih (List.not_mem_of_not_mem_cons h)]

theorem asmTrim_of_not_mem {w : List Char} (h : ' ' ∉ w) : asmTrim w = w := by
  have kept {cs : List Char} (free : ' ' ∉ cs) : cs.dropWhile (· = ' ') = cs := by
    rw [List.dropWhile_eq_self_iff]
    intro hl first
    exact free (by simpa using (of_decide_eq_true first ▸ List.getElem_mem hl : ' ' ∈ cs))
  rw [asmTrim, kept h, kept (by simpa using h), List.reverse_reverse]

theorem asmTrim_space (w : List Char) : asmTrim (' ' :: w) = asmTrim w := by
  simp [asmTrim]

theorem splitAtChar_ne_nil (c : Char) (cs : List Char) : splitAtChar c cs ≠ [] := by
  cases cs with
  | nil => simp [splitAtChar]
  | cons x xs =>
    unfold splitAtChar
    split
    · simp
    · split <;> simp

/-- A space at the front belongs to the first piece, where it is trimmed. -/
theorem map_asmTrim_splitAtChar_space (cs : List Char) :
    (splitAtChar ',' (' ' :: cs)).map asmTrim = (splitAtChar ',' cs).map asmTrim := by
  obtain ⟨w, ws, pieces⟩ := List.exists_cons_of_ne_nil (splitAtChar_ne_nil ',' cs)
  simp [splitAtChar, pieces, asmTrim_space]

/-- The positional operands of a pseudo-instruction's words are the numerals written. -/
theorem asmPositional_operandWords {ops : List (List Char)} (ne : ops ≠ []) (numerals : ∀ w ∈ ops, IsNumeral w) :
    asmPositional (operandWords ops) = ops := by
  rw [asmPositional, asmJoin_operandWords]
  induction ops using operandText.induct with
  | case1 => exact absurd rfl ne
  | case2 w =>
    have numeral := numerals w (by simp)
    rw [operandText, splitAtChar_of_not_mem (numeral.not_mem rfl), List.map_singleton,
      asmTrim_of_not_mem (numeral.not_mem rfl)]
  | case3 w v ws ih =>
    obtain ⟨numeral, tail⟩ := List.forall_mem_cons.mp numerals
    rw [operandText, splitAtChar_append (numeral.not_mem rfl), List.map_cons, asmTrim_of_not_mem (numeral.not_mem rfl),
      map_asmTrim_splitAtChar_space, ih (List.cons_ne_nil v ws) tail]

/-! ### The pseudo-instructions -/

theorem asmPseudo_ticks {ws : List (List Char)} {a b c : List Char} {n t0 dt : Nat} (ops : asmPositional ws = [a, b, c])
    (hn : asmNat a = some n) (ht0 : asmNat b = some t0) (hdt : asmNat c = some dt) :
    asmPseudo "TX.TICKS".toList ws = asmTxTicks n t0 dt := by
  simp only [asmPseudo, if_true, ops, hn, ht0, hdt]
  rfl

theorem asmPseudo_gray {ws : List (List Char)} {a c : List Char} {ts : BitVec 64} {v : Byte}
    (ops : asmPositional ws = [a, c]) (hts : asmMicros a = some ts) (hv : asmChannel c = some v) :
    asmPseudo "RX.GRAY".toList ws = some [asmRxGray ts v] := by
  have notTicks : "RX.GRAY".toList ≠ "TX.TICKS".toList := by simp
  simp only [asmPseudo, if_neg notTicks, if_true, ops, hts, hv]
  rfl

theorem asmPseudo_skip {ws : List (List Char)} {a : List Char} {ts : BitVec 64} (ops : asmPositional ws = [a])
    (hts : asmMicros a = some ts) : asmPseudo "RX.SKIP".toList ws = some [asmRxSkip ts] := by
  have notTicks : "RX.SKIP".toList ≠ "TX.TICKS".toList := by simp
  have notGray : "RX.SKIP".toList ≠ "RX.GRAY".toList := by simp
  simp only [asmPseudo, if_neg notTicks, if_neg notGray, if_true, ops, hts]
  rfl

/-- Everything a pseudo-instruction can stand for. -/
theorem asmPseudo_cases {m : List Char} {ws : List (List Char)} {is : List Instr} (h : asmPseudo m ws = some is) :
    (∃ n t0 dt, asmTxTicks n t0 dt = some is) ∨ (∃ ts v, is = [asmRxGray ts v]) ∨ ∃ ts, is = [asmRxSkip ts] := by
  unfold asmPseudo at h
  split at h
  · split at h
    · next n t0 dt _ =>
      simp only [Option.bind_eq_bind, Option.bind_eq_some_iff] at h
      obtain ⟨n, -, t0, -, dt, -, ticks⟩ := h
      exact .inl ⟨n, t0, dt, ticks⟩
    · cases h
  · split at h
    · split at h
      · simp only [Option.bind_eq_bind, Option.bind_eq_some_iff] at h
        obtain ⟨ts, -, v, -, gray⟩ := h
        cases gray
        exact .inr (.inl ⟨ts, v, rfl⟩)
      · cases h
    · split at h
      · split at h
        · simp only [Option.bind_eq_bind, Option.bind_eq_some_iff] at h
          obtain ⟨ts, -, skip⟩ := h
          cases skip
          exact .inr (.inr ⟨ts, rfl⟩)
        · cases h
      · cases h

/-- `TX.TICKS` when every time fits its field. -/
theorem asmTxTicks_of_fit {n t0 dt : Nat} (fit : ∀ k, k < n → t0 + k * dt < 2 ^ 64) :
    asmTxTicks n t0 dt = some ((List.range n).map fun k => .txTick (BitVec.ofNat 64 (t0 + k * dt))) :=
  mapM_eq_some_map fun k hk => if_pos (fit k (List.mem_range.mp hk))

/-- `TX.TICKS` when one time does not fit. -/
theorem asmTxTicks_of_overflow {n t0 dt k : Nat} (hk : k < n) (overflow : 2 ^ 64 ≤ t0 + k * dt) :
    asmTxTicks n t0 dt = none := by
  rw [Option.eq_none_iff_forall_ne_some]
  intro is ticks
  obtain ⟨i, -, hi⟩ := exists_of_mem_mapM ticks k (List.mem_range.mpr hk)
  rw [if_neg (not_lt.mpr overflow)] at hi
  cases hi

theorem eq_map_of_asmTxTicks {n t0 dt : Nat} {is : List Instr} (h : asmTxTicks n t0 dt = some is) :
    is = (List.range n).map fun k => .txTick (BitVec.ofNat 64 (t0 + k * dt)) := by
  by_cases fit : ∀ k, k < n → t0 + k * dt < 2 ^ 64
  · rw [asmTxTicks_of_fit fit] at h
    exact (Option.some.inj h).symm
  · push Not at fit
    obtain ⟨k, hk, overflow⟩ := fit
    rw [asmTxTicks_of_overflow hk overflow] at h
    cases h

theorem wf_of_asmPseudo {m : List Char} {ws : List (List Char)} {is : List Instr} (h : asmPseudo m ws = some is) :
    ∀ i ∈ is, i.wf = true := by
  intro i hi
  rcases asmPseudo_cases h with ⟨n, t0, dt, ticks⟩ | ⟨ts, v, rfl⟩ | ⟨ts, rfl⟩
  · rw [eq_map_of_asmTxTicks ticks] at hi
    obtain ⟨k, -, rfl⟩ := List.mem_map.mp hi
    rfl
  · rw [List.mem_singleton.mp hi, asmRxGray, wf_rxFrame_iff]
    simp
  · rw [List.mem_singleton.mp hi, asmRxSkip, wf_rxFrame_iff]
    simp

/-! ### Lines -/

/-- Every accepted line is a pseudo-instruction or one command that fits its packet. -/
theorem assemble_cases {line : String} {is : List Instr} (h : assemble line = some is) :
    (∃ m ws, asmPseudo m ws = some is) ∨ ∃ i, i.wf = true ∧ is = [i] := by
  unfold assemble at h
  split at h
  · cases h
  · next m ws _ =>
    split at h
    · next pseudo => cases h; exact .inl ⟨m, ws, pseudo⟩
    · simp only [Option.bind_eq_bind, Option.bind_eq_some_iff] at h
      obtain ⟨-, -, i, -, fits⟩ := h
      split at fits
      · next wf => cases fits; exact .inr ⟨i, wf, rfl⟩
      · cases fits

theorem wf_of_assemble {line : String} {is : List Instr} (h : assemble line = some is) : ∀ i ∈ is, i.wf = true := by
  rcases assemble_cases h with ⟨m, ws, pseudo⟩ | ⟨i, wf, rfl⟩
  · exact wf_of_asmPseudo pseudo
  · simpa using wf

theorem assemble_of_asmPseudo {line : String} {m : List Char} {ws : List (List Char)} {is : List Instr}
    (words : asmWords false false [] line.toList = m :: ws) (pseudo : asmPseudo m ws = some is) :
    assemble line = some is := by
  simp only [assemble, words, pseudo]

theorem assemble_eq_none {line : String} {m : List Char} {ws : List (List Char)}
    (words : asmWords false false [] line.toList = m :: ws) (pseudo : asmPseudo m ws = none)
    (noCommand : ∀ ops, asmCommand m ops = none) : assemble line = none := by
  simp only [assemble, words, pseudo, noCommand]
  cases ws.mapM asmOperand <;> rfl

/-- The words of a line `m op, op, …` with numerals for operands. -/
theorem asmWords_pseudo {m : List Char} {ops : List (List Char)} (ne : m ≠ []) (plain : ∀ x ∈ m, isPlain x = true)
    (numerals : ∀ w ∈ ops, IsNumeral w) :
    asmWords false false [] (m ++ ' ' :: operandText ops) = m :: operandWords ops := by
  rw [asmWords_space ne plain, asmWords_operandText numerals]

theorem asmCommand_ticks (ops : List (List Char × List Char)) : asmCommand "TX.TICKS".toList ops = none := by
  simp [asmCommand]

/-- The line `TX.TICKS n, t0, dt` stands for what `asmTxTicks` gives. -/
theorem assemble_ticks {a b c : List Char} {n t0 dt : Nat} (hn : asmNat a = some n) (ht0 : asmNat b = some t0)
    (hdt : asmNat c = some dt) :
    assemble (String.ofList ("TX.TICKS ".toList ++ a ++ ", ".toList ++ b ++ ", ".toList ++ c)) = asmTxTicks n t0 dt := by
  have numerals : ∀ w ∈ [a, b, c], IsNumeral w := by
    simp [isNumeral_of_asmNat hn, isNumeral_of_asmNat ht0, isNumeral_of_asmNat hdt]
  have text : "TX.TICKS ".toList ++ a ++ ", ".toList ++ b ++ ", ".toList ++ c
      = "TX.TICKS".toList ++ ' ' :: operandText [a, b, c] := by simp [operandText]
  have words := asmWords_pseudo (m := "TX.TICKS".toList) (by simp) (by simp [isPlain, asmQuote]) numerals
  have pseudo := asmPseudo_ticks (asmPositional_operandWords (by simp) numerals) hn ht0 hdt
  rw [text]
  cases ticks : asmTxTicks n t0 dt with
  | some is => exact assemble_of_asmPseudo (by rw [String.toList_ofList, words]) (pseudo.trans ticks)
  | none => exact assemble_eq_none (by rw [String.toList_ofList, words]) (pseudo.trans ticks) asmCommand_ticks

theorem assemble_gray {a c : List Char} {ts : BitVec 64} {v : Byte} (hts : asmMicros a = some ts)
    (hv : asmChannel c = some v) :
    assemble (String.ofList ("RX.GRAY ".toList ++ a ++ ", ".toList ++ c)) = some [asmRxGray ts v] := by
  have numerals : ∀ w ∈ [a, c], IsNumeral w := by simp [isNumeral_of_asmMicros hts, isNumeral_of_asmChannel hv]
  have text : "RX.GRAY ".toList ++ a ++ ", ".toList ++ c = "RX.GRAY".toList ++ ' ' :: operandText [a, c] := by
    simp [operandText]
  have words := asmWords_pseudo (m := "RX.GRAY".toList) (by simp) (by simp [isPlain, asmQuote]) numerals
  rw [text]
  exact assemble_of_asmPseudo (by rw [String.toList_ofList, words])
    (asmPseudo_gray (asmPositional_operandWords (by simp) numerals) hts hv)

theorem assemble_skip {a : List Char} {ts : BitVec 64} (hts : asmMicros a = some ts) :
    assemble (String.ofList ("RX.SKIP ".toList ++ a)) = some [asmRxSkip ts] := by
  have numerals : ∀ w ∈ [a], IsNumeral w := by simp [isNumeral_of_asmMicros hts]
  have text : "RX.SKIP ".toList ++ a = "RX.SKIP".toList ++ ' ' :: operandText [a] := by simp [operandText]
  have words := asmWords_pseudo (m := "RX.SKIP".toList) (by simp) (by simp [isPlain, asmQuote]) numerals
  rw [text]
  exact assemble_of_asmPseudo (by rw [String.toList_ofList, words])
    (asmPseudo_skip (asmPositional_operandWords (by simp) numerals) hts)

/-- The luminance weights add up to 1 (rule R125), so a grey pixel's frame is as bright as its channels. -/
theorem frameBrightness_gray (v : Byte) : frameBrightness [⟨v, v, v⟩] = (v.toNat : Rat) := by
  simp only [frameBrightness, sampledPixels, sampleFrom, List.map_cons, List.map_nil, mean, List.sum_singleton,
    List.length_singleton, luma, literals_lumaR, literals_lumaG, literals_lumaB, Nat.cast_one, div_one]
  ring

/-! ### Numbers (rules R76, R82) -/

/-- The Q16.16 field of a number is the one that holds it, and there is none where no field does. -/
theorem q16Field_eq_some_iff (v : Rat) (f : BitVec 32) : q16Field v = some f ↔ q16 f = v := by
  constructor
  · intro h
    simp only [q16Field] at h
    split at h
    · next range =>
      obtain ⟨whole, lo, hi⟩ := range
      have value : f.toInt = (v * 65536).num := by
        rw [← Option.some.inj h]
        exact BitVec.toInt_ofInt_eq_self (by norm_num) lo hi
      rw [q16, value, Rat.coe_int_num_of_den_eq_one whole]
      exact mul_div_cancel_right₀ v (by norm_num)
    · cases h
  · rintro rfl
    have scaled : q16 f * 65536 = (f.toInt : Rat) := div_mul_cancel₀ _ (by norm_num)
    simp only [q16Field, scaled, Rat.num_intCast, Rat.den_intCast, BitVec.ofInt_toInt]
    exact if_pos ⟨trivial, f.le_toInt, f.toInt_lt⟩

/-- An omitted number is its default (rule R82). -/
theorem q16_of_asmNumber_none {default : Rat} {f : BitVec 32} (h : asmNumber default none = some f) : q16 f = default :=
  (q16Field_eq_some_iff default f).mp h

/-- A number that no field holds is rejected, whatever the default. -/
theorem asmNumber_eq_none {cs : List Char} {v : Rat} (default : Rat) (hv : asmDecimal cs = some v)
    (noField : ∀ f : BitVec 32, q16 f ≠ v) : asmNumber default (some cs) = none := by
  have unheld : q16Field v = none :=
    Option.eq_none_iff_forall_ne_some.mpr fun f hf => noField f ((q16Field_eq_some_iff v f).mp hf)
  simp only [asmNumber, hv, Option.bind_some, unheld]

/-! ### Operands by key -/

/-- Where the fields of an accepted `TX.START` come from. -/
theorem asmTxStart_cases {ops : List (List Char × List Char)} {i : Instr} (h : asmTxStart ops = some i) :
    ∃ now fps code, i = .txStart now fps code ∧ asmNumber 60 (asmLookup "fps" ops) = some fps := by
  simp only [asmTxStart, Option.bind_eq_bind, Option.bind_eq_some_iff, literals_defaultTargetFps] at h
  obtain ⟨now, -, code, -, fps, hfps, keys⟩ := h
  split at keys
  · cases keys; exact ⟨now, fps, code, rfl, hfps⟩
  · cases keys

/-- Where the fields of an accepted `RX.START` come from. -/
theorem asmRxStart_cases {ops : List (List Char × List Char)} {i : Instr} (h : asmRxStart ops = some i) :
    ∃ video draw grant cid size thr e, i = .rxStart video draw grant cid size.1 size.2 thr e ∧
      asmOr (0, 0) asmSize (asmLookup "src" ops) = some size ∧
      asmOr [] asmBytes (asmLookup "code" ops) = some e ∧
      asmNumber 128 (asmLookup "thr" ops) = some thr ∧
      asmOr none (fun cs => (asmBytes cs).map some) (asmLookup "cam" ops) = some cid := by
  simp only [asmRxStart, Option.bind_eq_bind, Option.bind_eq_some_iff, literals_defaultThreshold] at h
  obtain ⟨video, -, draw, -, grant, -, size, hsize, e, he, thr, hthr, cid, hcid, keys⟩ := h
  split at keys
  · cases keys; exact ⟨video, draw, grant, cid, size, thr, e, rfl, hsize, he, hthr, hcid⟩
  · cases keys

/-- Where the fields of an accepted `RX.FRAME` come from. -/
theorem asmRxFrame_cases {ops : List (List Char × List Char)} {i : Instr} (h : asmRxFrame ops = some i) :
    ∃ ts ready ctx fail px, i = .rxFrame ts ready ctx fail px ∧
      asmOr true asmFlag (asmLookup "ready" ops) = some ready ∧
      asmOr true asmFlag (asmLookup "ctx" ops) = some ctx ∧
      asmOr false asmFlag (asmLookup "fail" ops) = some fail := by
  simp only [asmRxFrame, Option.bind_eq_bind, Option.bind_eq_some_iff] at h
  obtain ⟨ts, -, ready, hready, ctx, hctx, fail, hfail, px, -, keys⟩ := h
  split at keys
  · cases keys; exact ⟨ts, ready, ctx, fail, px, rfl, hready, hctx, hfail⟩
  · cases keys

/-- An operand left out takes its default. -/
theorem eq_default_of_asmOr {α : Type} {default value : α} {read : List Char → Option α} {operand : Option (List Char)}
    (h : asmOr default read operand = some value) (omitted : operand = none) : value = default := by
  subst omitted
  exact (Option.some.inj h).symm

theorem txStart_defaults (ops : List (List Char × List Char)) (i : Instr) (h : asmTxStart ops = some i) :
    ∃ now fps code, i = .txStart now fps code ∧ (asmLookup "fps" ops = none → q16 fps = 60) := by
  obtain ⟨now, fps, code, rfl, hfps⟩ := asmTxStart_cases h
  exact ⟨now, fps, code, rfl, fun omitted => q16_of_asmNumber_none (omitted ▸ hfps)⟩

theorem rxStart_defaults (ops : List (List Char × List Char)) (i : Instr) (h : asmRxStart ops = some i) :
    ∃ video draw grant cid w h thr e, i = .rxStart video draw grant cid w h thr e ∧
      (asmLookup "src" ops = none → w = 0 ∧ h = 0) ∧ (asmLookup "code" ops = none → e = []) ∧
      (asmLookup "thr" ops = none → q16 thr = 128) ∧ (asmLookup "cam" ops = none → cid = none) := by
  obtain ⟨video, draw, grant, cid, size, thr, e, rfl, hsize, he, hthr, hcid⟩ := asmRxStart_cases h
  exact ⟨video, draw, grant, cid, size.1, size.2, thr, e, rfl,
    fun omitted => Prod.mk.injEq .. ▸ eq_default_of_asmOr hsize omitted, eq_default_of_asmOr he,
    fun omitted => q16_of_asmNumber_none (omitted ▸ hthr), eq_default_of_asmOr hcid⟩

theorem rxFrame_defaults (ops : List (List Char × List Char)) (i : Instr) (h : asmRxFrame ops = some i) :
    ∃ ts ready ctx fail px, i = .rxFrame ts ready ctx fail px ∧
      (asmLookup "ready" ops = none → ready = true) ∧ (asmLookup "ctx" ops = none → ctx = true) ∧
      (asmLookup "fail" ops = none → fail = false) := by
  obtain ⟨ts, ready, ctx, fail, px, rfl, hready, hctx, hfail⟩ := asmRxFrame_cases h
  exact ⟨ts, ready, ctx, fail, px, rfl, eq_default_of_asmOr hready, eq_default_of_asmOr hctx,
    eq_default_of_asmOr hfail⟩

/-- A start with a number that no field holds is rejected. -/
theorem start_rejects_number {cs : List Char} {v : Rat} (ops : List (List Char × List Char))
    (hv : asmDecimal cs = some v) (noField : ∀ f : BitVec 32, q16 f ≠ v) :
    (asmLookup "fps" ops = some cs → asmTxStart ops = none) ∧
      (asmLookup "thr" ops = some cs → asmRxStart ops = none) := by
  refine ⟨fun operand => Option.eq_none_iff_forall_ne_some.mpr fun i accepted => ?_,
    fun operand => Option.eq_none_iff_forall_ne_some.mpr fun i accepted => ?_⟩
  · obtain ⟨-, fps, -, -, hfps⟩ := asmTxStart_cases accepted
    rw [operand, asmNumber_eq_none 60 hv noField] at hfps
    cases hfps
  · obtain ⟨-, -, -, -, -, thr, -, -, -, -, hthr, -⟩ := asmRxStart_cases accepted
    rw [operand, asmNumber_eq_none 128 hv noField] at hthr
    cases hthr

/-- Settles O60: the lexer's lemmas give the pseudo-instructions, the forms' lemmas the defaults and the rejected
numbers, and the lines that hold no variable are evaluated. -/
theorem assembledCommandsFitTheirPackets : Obligations.AssembledCommandsFitTheirPackets := by
  refine ⟨fun line is => wf_of_assemble, fun a b c n t0 dt hn ht0 hdt => ?ticks,
    fun a c ts v hts hv => ⟨assemble_gray hts hv, frameBrightness_gray v⟩, fun a ts hts => assemble_skip hts,
    txStart_defaults, rxStart_defaults, rxFrame_defaults, q16Field_eq_some_iff,
    fun cs v ops hv noField => start_rejects_number ops hv noField, ?lines⟩
  case ticks =>
    dsimp only
    rw [assemble_ticks hn ht0 hdt]
    exact ⟨asmTxTicks_of_fit, fun k => asmTxTicks_of_overflow⟩
  case lines => decide +kernel

end Sys2Proof.Machine

/-! ## The bit duration and the bit index (rules R98, R100, R103) -/

namespace Sys2Proof.Machine

/-- The floor of a quotient is the number of whole `d` in `x`. -/
theorem floor_div_eq_iff {x d : Rat} (hd : 0 < d) (k : Int) :
    ⌊x / d⌋ = k ↔ (k : Rat) * d ≤ x ∧ x < ((k : Rat) + 1) * d := by
  rw [Int.floor_eq_iff, le_div_iff₀ hd, div_lt_iff₀ hd]

/-! ### The bands of the effective rate (rule R98) -/

theorem effectiveRate_eq (measured targetFps : Rat) :
    effectiveRate measured targetFps = max 30 (min 120 (min measured targetFps)) := by
  simp [effectiveRate, clamp]

theorem bitDuration_eq (rate : Rat) : bitDuration rate = 1000 / rate * ((max 1 ⌊rate / 30⌋ : Int) : Rat) := by
  simp [bitDuration, framesPerBit]

/-- The clamp keeps the rate at 30 or more, so the multiplier is never raised to 1. -/
theorem one_le_floor_rate {rate : Rat} (h : 30 ≤ rate) : 1 ≤ ⌊rate / 30⌋ := by
  rw [Int.le_floor]
  push_cast
  linarith

/-- On the band of rates from `30k` up to `30(k + 1)` the multiplier is `k`. -/
theorem max_floor_of_band {rate : Rat} {k : Int} (pos : 1 ≤ k) (lo : (k : Rat) * 30 ≤ rate)
    (hi : rate < ((k : Rat) + 1) * 30) : max 1 ⌊rate / 30⌋ = k := by
  rw [(floor_div_eq_iff (by norm_num) k).mpr ⟨lo, hi⟩, max_eq_right pos]

/-- Every rate that the clamp lets through lies in a band, and its bit duration is then `1000k / rate`. -/
theorem exists_band {rate : Rat} (h : 30 ≤ rate) :
    ∃ k : Int, 1 ≤ k ∧ (k : Rat) * 30 ≤ rate ∧ rate < ((k : Rat) + 1) * 30 ∧
      bitDuration rate = 1000 * (k : Rat) / rate := by
  have pos := one_le_floor_rate h
  obtain ⟨lo, hi⟩ := (floor_div_eq_iff (by norm_num) _).mp (rfl : ⌊rate / 30⌋ = ⌊rate / 30⌋)
  refine ⟨⌊rate / 30⌋, pos, lo, hi, ?_⟩
  rw [bitDuration_eq, max_eq_right pos, div_mul_eq_mul_div]

/-- Above 50/3, since a band's rates are below `30(k + 1)` and that is at most `60k`; at most 100/3, since they are
`30k` or more. -/
theorem bitDuration_mem_Ioc {rate : Rat} (h : 30 ≤ rate) : bitDuration rate ∈ Set.Ioc (50 / 3) (100 / 3) := by
  obtain ⟨k, pos, lo, hi, dur⟩ := exists_band h
  have ratePos : 0 < rate := by linarith
  have one : (1 : Rat) ≤ k := by exact_mod_cast pos
  rw [dur]
  exact ⟨(lt_div_iff₀ ratePos).mpr (by linarith), (div_le_iff₀ ratePos).mpr (by linarith)⟩

/-- The longest bit duration is that of the bands' lower ends. -/
theorem bitDuration_eq_longest_iff {rate : Rat} (h : 30 ≤ rate) :
    bitDuration rate = 100 / 3 ↔ ∃ k : Int, 1 ≤ k ∧ rate = (k : Rat) * 30 := by
  have ratePos : 0 < rate := by linarith
  constructor
  · intro longest
    obtain ⟨k, pos, -, -, dur⟩ := exists_band h
    rw [dur, div_eq_iff ratePos.ne'] at longest
    exact ⟨k, pos, by linarith⟩
  · rintro ⟨k, pos, rfl⟩
    rw [bitDuration_eq, max_floor_of_band pos le_rfl (by linarith), div_mul_eq_mul_div, div_eq_iff ratePos.ne']
    ring

/-- Up to RATE_MAX there are four such ends. -/
theorem exists_multiple_iff {rate : Rat} (h : rate ≤ 120) :
    (∃ k : Int, 1 ≤ k ∧ rate = (k : Rat) * 30) ↔ rate = 30 ∨ rate = 60 ∨ rate = 90 ∨ rate = 120 := by
  constructor
  · rintro ⟨k, pos, rfl⟩
    have top : k ≤ 4 := by exact_mod_cast (by linarith : (k : Rat) ≤ 4)
    interval_cases k <;> norm_num
  · rintro (rfl | rfl | rfl | rfl)
    · exact ⟨1, by norm_num⟩
    · exact ⟨2, by norm_num⟩
    · exact ⟨3, by norm_num⟩
    · exact ⟨4, by norm_num⟩

/-- Settles O18: the rate is in 30 to 120, and each of its bands has one multiplier. -/
theorem bitDurationFollowsTheEffectiveRate : Obligations.BitDurationFollowsTheEffectiveRate := by
  intro measured target e
  obtain ⟨lo, hi⟩ : e ∈ Set.Icc 30 120 := effectiveRate_mem_Icc measured target
  have pos : 0 < e := by linarith
  obtain ⟨durLo, durHi⟩ := bitDuration_mem_Ioc lo
  refine ⟨effectiveRate_eq measured target, bitDuration_eq e, ?shortestFrame, ?longestFrame, fun band => ?one,
    fun band => ?two, fun band => ?three, fun band => ?four, one_le_floor_rate lo, durLo, durHi,
    (bitDuration_eq_longest_iff lo).trans (exists_multiple_iff hi)⟩
  case shortestFrame => rw [le_div_iff₀ pos]; linarith
  case longestFrame => rw [div_le_iff₀ pos]; linarith
  case one | two | three | four =>
    exact max_floor_of_band (by norm_num) (by push_cast; linarith) (by push_cast; linarith)

/-! ### The index as a function of time (rule R103) -/

/-- A whole cycle of the code later the same bit is shown. -/
theorem bitIndexAt_add_cycle (e : Rat) {D : Rat} (hD : 0 < D) (L : Nat) :
    bitIndexAt (e + (L : Rat) * D) D L = bitIndexAt e D L := by
  have cycle : (e + (L : Rat) * D) / D = e / D + (L : Rat) := by rw [add_div, mul_div_cancel_right₀ _ hD.ne']
  rw [bitIndexAt, bitIndexAt, cycle, Int.floor_add_natCast, Int.add_emod_right]

/-- In the `k`th bit period the index is `k` modulo the code's length. -/
theorem bitIndexAt_of_period {e D : Rat} (hD : 0 < D) (L : Nat) {k : Nat} (lo : (k : Rat) * D ≤ e)
    (hi : e < ((k + 1 : Nat) : Rat) * D) : bitIndexAt e D L = k % L := by
  have period : ⌊e / D⌋ = (k : Int) := (floor_div_eq_iff hD _).mpr ⟨by simpa using lo, by simpa using hi⟩
  rw [bitIndexAt, period, ← Int.natCast_mod, Int.toNat_natCast]

/-- Settles O21: the whole cycle and the single bit period. -/
theorem bitIndexIsPeriodic : Obligations.BitIndexIsPeriodic := fun _ L hD _ =>
  ⟨fun e _ => bitIndexAt_add_cycle e hD L, fun _ _ lo hi => bitIndexAt_of_period hD L lo hi⟩

end Sys2Proof.Machine

/-! ## The transmitter's commands (40_bit_modulator.md) -/

namespace Sys2Proof.Machine

theorem timeOf_eq (us : BitVec 64) : timeOf us = (us.toNat : Rat) / 1000 := by
  simp [timeOf]

/-! ### TX.START (rules R92 to R94) -/

theorem isBinaryCode_iff (code : List Symbol) :
    isBinaryCode code = true ↔ code ≠ [] ∧ ∀ x ∈ code, x = 0x30 ∨ x = 0x31 := by
  simp [isBinaryCode, symZero, symOne]

theorem isBinaryCode_eq_false {code : List Symbol} (h : code = [] ∨ ∃ x ∈ code, x ≠ 0x30 ∧ x ≠ 0x31) :
    isBinaryCode code = false := by
  rw [Bool.eq_false_iff, ne_eq, isBinaryCode_iff]
  rintro ⟨ne, binary⟩
  obtain rfl | ⟨x, hx, notZero, notOne⟩ := h
  · exact ne rfl
  · exact (binary x hx).elim notZero notOne

/-- Settles O12: the code fails the check, and the check comes first. -/
theorem txStartRefusesANonBinaryCode : Obligations.TxStartRefusesANonBinaryCode := by
  intro now fps code s h
  simp [exec_txStart, isBinaryCode_eq_false h]

/-- Settles O13: the accepted branch of the start, after an implicit stop that leaves a good instance at reset. -/
theorem txStartLoadsTheCodeAndCalibrates : Obligations.TxStartLoadsTheCodeAndCalibrates := by
  intro now fps code s ne binary
  have accepted := exec_txStart now fps code s
  rw [if_pos ((isBinaryCode_iff code).mpr ⟨ne, binary⟩)] at accepted
  refine ⟨?anyState, fun inv s' hs => ?goodState⟩
  case anyState =>
    rw [accepted, timeOf_eq]
    rfl
  case goodState =>
    rw [accepted, txImplicitStop_eq_reset inv, timeOf_eq] at hs
    cases hs
    exact ⟨rfl, rfl⟩

/-! ### TX.TICK, by the phase of the run (rule R95) -/

theorem exec_txTick_of_no_run {s : State} (h : s.tx.active = false ∨ s.tx.phase = .idle) (ts : BitVec 64) :
    exec (.txTick ts) s = done (clearOutputs s) := by
  obtain inactive | idle := h
  · simp [exec, execTxTick, txTick, inactive]
  · simp [exec, execTxTick, txTick, idle]

theorem exec_txTick_of_cal {s : State} (active : s.tx.active = true) (cal : s.tx.phase = .cal) (ts : BitVec 64) :
    exec (.txTick ts) s = calTick (timeOf ts) (clearOutputs s) := by
  simp [exec, execTxTick, txTick, active, cal]

theorem exec_txTick_of_run {s : State} (active : s.tx.active = true) (run : s.tx.phase = .run) (ts : BitVec 64) :
    exec (.txTick ts) s = runTick (timeOf ts) (clearOutputs s) := by
  simp [exec, execTxTick, txTick, active, run]

/-- Settles O14: no tick is delivered without a run. -/
theorem txTickWithoutARunDoesNothing : Obligations.TxTickWithoutARunDoesNothing :=
  fun ts _ h => exec_txTick_of_no_run h ts

/-! ### TX.TICK in CAL (rules R96 to R99) -/

section Calibration

variable {t : Time} {s : State}

/-- A callback in time that is not the last only counts (rule R96). -/
theorem calTick_of_not_last (held : s.txTime ≤ t) (start : s.tx.calT0 ≤ t) (notLast : s.tx.calCount + 1 ≠ 60) :
    calTick t s = done (setTxTime t (setTx { s.tx with calCount := s.tx.calCount + 1 } s)) := by
  simp [calTick, held.not_gt, start.not_gt, notLast]

/-- The last callback in time begins the loop (rules R97 to R99). -/
theorem calTick_of_last {bit : Bool} (held : s.txTime ≤ t) (start : s.tx.calT0 ≤ t) (last : s.tx.calCount + 1 = 60)
    (first : s.tx.code[0]? = some bit) :
    calTick t s = done (emit (.txUpdate (some bit)) (setTxTime t
      (setTx (beginLoop (measuredRate s.config (t - s.tx.calT0)) t bit { s.tx with calCount := 60 }) s))) := by
  simp [calTick, held.not_gt, start.not_gt, last, first]

end Calibration

/-- Settles O15: one callback that is not the last. -/
theorem calibrationTickOnlyCounts : Obligations.CalibrationTickOnlyCounts := by
  intro ts s active cal notLast held start
  rw [← timeOf_eq] at *
  rw [exec_txTick_of_cal active cal, calTick_of_not_last (s := clearOutputs s) held start notLast]
  rfl

/-- The calibrated rate with its parameters' values written out (rule R97). -/
theorem measuredRate_eq (c : Config) (elapsed : Rat) :
    measuredRate c elapsed =
      if 0 < elapsed then max 30 (min 120 (roundRate c (60 * 1000 / elapsed))) else 120 := by
  simp [measuredRate, clamp]

/-- Settles O16: the last callback, with the rates and the bit duration written out. -/
theorem sixtiethTickBeginsTheLoop : Obligations.SixtiethTickBeginsTheLoop := by
  intro ts s bit active cal count first t held start raw measured effective
  have time : timeOf ts = t := timeOf_eq ts
  have rate : measuredRate s.config (t - s.tx.calT0) = measured := measuredRate_eq ..
  have eff : effectiveRate measured s.tx.targetFps = effective := effectiveRate_eq ..
  rw [exec_txTick_of_cal active cal, time, calTick_of_last (s := clearOutputs s) held start (by simp [count]) first]
  simp [done_eq, emit, setTxTime, setTx, beginLoop, clearOutputs, rate, eff, bitDuration_eq]

/-! ### TX.TICK in RUN (rules R100 to R102) -/

/-- The registers after a loop iteration that finds the index `idx`. -/
theorem countTick_showIndex (t : Time) (idx : Nat) (s : State) :
    countTick t (showIndex idx s).tx = { s.tx with
      bitIndex := idx
      curBit := if idx = s.tx.bitIndex then s.tx.curBit else s.tx.code[idx]?
      measFps := if 1000 ≤ t - s.tx.fpsT0 then ((s.tx.fpsCount + 1 : Nat) : Rat) else s.tx.measFps
      fpsCount := if 1000 ≤ t - s.tx.fpsT0 then 0 else s.tx.fpsCount + 1
      fpsT0 := if 1000 ≤ t - s.tx.fpsT0 then t else s.tx.fpsT0 } := by
  rw [countTick_eq, showIndex_tx]
  split
  · next same => subst same; rfl
  · rfl

/-- A loop iteration in time, at the index `idx` that its time gives. -/
theorem runTick_in_time {t : Time} {s : State} {idx : Nat} (held : s.txTime ≤ t) (epoch : s.tx.epoch ≤ t)
    (window : s.tx.fpsT0 ≤ t) (code : s.tx.code ≠ []) (dur : 0 < s.tx.bitDur)
    (index : bitIndexAt (t - s.tx.epoch) s.tx.bitDur s.tx.code.length = idx) :
    runTick t s = .next { s with
      tx := countTick t (showIndex idx s).tx
      txTime := t
      response := some ⟨.ok, .nothing⟩
      events := if idx = s.tx.bitIndex then s.events else s.events ++ [.txUpdate s.tx.code[idx]?] } := by
  subst index
  rw [runTick_next_iff]
  exact ⟨held, epoch, window, code, dur, by simp [respond, setTxTime, setTx, showIndex_events]⟩

/-- Settles O19: the loop iteration at the index of its time. -/
theorem runTickShowsTheBitOfItsTime : Obligations.RunTickShowsTheBitOfItsTime := by
  intro ts s active run code dur held epoch window t idx
  have index : bitIndexAt (t - s.tx.epoch) s.tx.bitDur s.tx.code.length = idx := rfl
  refine ⟨index ▸ bitIndexAt_lt (by simpa using code), ?_⟩
  rw [exec_txTick_of_run active run, timeOf_eq,
    runTick_in_time (s := clearOutputs s) held epoch window code dur index, countTick_showIndex]
  rfl

/-! ### TX.STOP, TX.COLOR, TX.STATUS (rules R104 to R107) -/

theorem TxInv.eq_reset_of_inactive {tx : TxState} (h : TxInv tx) (inactive : tx.active = false) : tx = TxState.reset :=
  h.idle (by_contra fun busy => by simp [h.activeIff.mpr busy] at inactive)

/-- Outside RUN no bit is visible: an idle instance is at reset, and a calibrating one shows nothing yet. -/
theorem TxInv.curBit_of_not_run {tx : TxState} (h : TxInv tx) (notRun : tx.phase ≠ .run) : tx.curBit = none := by
  cases phase : tx.phase with
  | idle =>
    rw [h.idle phase]
    rfl
  | cal =>
    obtain ⟨-, others⟩ := h.calibrating phase
    rw [others]
    rfl
  | run => exact absurd phase notRun

/-- Settles O22: the stop writes the reset record. -/
theorem txStopClearsTheTransmitter : Obligations.TxStopClearsTheTransmitter :=
  ⟨rfl, fun s => ⟨exec_txStop s, rfl⟩⟩

/-- Settles O23: the registers written are the same from every state, and an inactive instance holds them already. -/
theorem txStopIsIdempotent : Obligations.TxStopIsIdempotent := by
  refine ⟨fun s s' hs => ?again, fun s inv inactive => ?inactive⟩
  case again =>
    rw [exec_txStop] at hs
    cases hs
    exact exec_txStop _
  case inactive => rw [exec_txStop, ← inv.eq_reset_of_inactive inactive]

/-- Settles O24: the answer is COLOR_OUT, and no bit is visible outside RUN. -/
theorem txColorReadsTheVisibleBit : Obligations.TxColorReadsTheVisibleBit :=
  ⟨rfl, fun s => ⟨exec_txColor s, fun inv notRun => by simp [colorOut, inv.curBit_of_not_run notRun]⟩⟩

/-- Settles O25: the record of the status is made of the four registers. -/
theorem txStatusReadsTheObservableState : Obligations.TxStatusReadsTheObservableState :=
  ⟨rfl, exec_txStatus⟩

end Sys2Proof.Machine

/-! ## The brightness accumulator (41_brightness_accumulator.md) -/

namespace Sys2Proof.Machine

/-! ### LUMA (rules R125, R126) -/

theorem luma_eq (p : Pixel) :
    luma p = (2126 * (p.r.toNat : Rat) + 7152 * (p.g.toNat : Rat) + 722 * (p.b.toNat : Rat)) / 10000 := by
  simp only [luma, literals_lumaR, literals_lumaG, literals_lumaB]
  ring

theorem luma_gray (v : Byte) : luma ⟨v, v, v⟩ = (v.toNat : Rat) := by
  rw [luma_eq]
  ring

/-- Settles O44: the weights add up to 1. -/
theorem luminanceIsTheExactWeightedSum : Obligations.LuminanceIsTheExactWeightedSum := by
  intro p
  obtain ⟨lo, hi⟩ := luma_mem_Icc p
  exact ⟨luma_eq p, lo, hi, luma_gray⟩

/-- Element `j` of the subsample lies ten pixels behind element `j - 1`, the first behind those passed over. -/
theorem sampleFrom_getElem? (skip : Nat) (px : List Pixel) (j : Nat) :
    (sampleFrom skip px)[j]? = px[skip + 10 * j]? := by
  induction skip, px using sampleFrom.induct generalizing j with
  | case1 => simp [sampleFrom]
  | case2 p ps ih =>
    cases j with
    | zero => simp [sampleFrom]
    | succ j =>
      have place : 0 + 10 * (j + 1) = (9 + 10 * j) + 1 := by ring
      rw [place, List.getElem?_cons_succ, sampleFrom, List.getElem?_cons_succ, ih, literals_pixelStride]
  | case3 skip p ps ih =>
    rw [sampleFrom, ih, Nat.add_right_comm skip 1, List.getElem?_cons_succ]

/-- The subsample has one element for each ten pixels begun behind those passed over. -/
theorem sampleFrom_length (skip : Nat) (px : List Pixel) :
    (sampleFrom skip px).length = (px.length + 9 - skip) / 10 := by
  induction skip, px using sampleFrom.induct with
  | case1 skip =>
    simp only [sampleFrom, List.length_nil]
    omega
  | case2 p ps ih =>
    rw [sampleFrom, List.length_cons, ih, literals_pixelStride, List.length_cons]
    omega
  | case3 skip p ps ih =>
    simp only [sampleFrom, List.length_cons, ih]
    omega

theorem sampledPixels_length (px : List Pixel) : (sampledPixels px).length = (px.length + 9) / 10 :=
  sampleFrom_length 0 px

/-- Settles O45: the subsample's elements and length, by induction over the list, and the range of a mean. -/
theorem brightnessIsTheMeanOfEveryTenthPixel : Obligations.BrightnessIsTheMeanOfEveryTenthPixel := by
  intro px
  obtain ⟨lo, hi⟩ := frameBrightness_mem_Icc px
  refine ⟨fun j => ?element, sampledPixels_length px, ?mean, lo, hi⟩
  case element => rw [sampledPixels, sampleFrom_getElem?, Nat.zero_add]
  case mean => rw [frameBrightness, mean, List.length_map, sampledPixels_length]

/-! ### The decoder's bit duration (rule R128) -/

/-- The assumed rate is the lower end of a band, so the decoder's bit duration is the longest one. -/
theorem rxBitDur_eq : rxBitDur = 100 / 3 := by
  rw [rxBitDur, literals_rxAssumedFps, bitDuration_eq_longest_iff (by norm_num)]
  exact ⟨2, by norm_num⟩

theorem closeAfter_eq : closeAfter = 80 / 3 := by
  rw [closeAfter, rxBitDur_eq, literals_closeFraction]
  norm_num

/-- Settles O46: a transmitter has the decoder's bit duration at the lower ends of the bands. -/
theorem decoderBitDurationIsConstant : Obligations.DecoderBitDurationIsConstant := by
  refine ⟨rxBitDur_eq, closeAfter_eq, fun e lo hi => ?_⟩
  rw [rxBitDur_eq]
  exact (bitDuration_eq_longest_iff lo).trans (exists_multiple_iff hi)

/-! ### RX.FRAME, by its gates (rules R121 to R123, R193) -/

theorem exec_rxFrame_of_no_run {s : State} (inactive : s.rx.active = false) (ts : BitVec 64) (ready ctx fail : Bool)
    (px : List Pixel) : exec (.rxFrame ts ready ctx fail px) s = done (clearOutputs s) := by
  simp [exec, execRxFrame, rxFrame, clearOutputs, inactive]

/-- Settles O36: the gate of activity is the first. -/
theorem frameWithoutARunDoesNothing : Obligations.FrameWithoutARunDoesNothing :=
  fun ts ready ctx fail px _ inactive => exec_rxFrame_of_no_run inactive ts ready ctx fail px

section Gates

variable {ts : BitVec 64} {ready ctx fail : Bool} {px : List Pixel} {s : State} (active : s.rx.active = true)
  (order : s.rx.first = false → s.rxTime ≤ timeOf ts ∧ s.rx.winAnchor ≤ timeOf ts)

include active order

/-- A frame of an active run whose time rule R226 allows meets the gates of context and readiness, and then of
failure. -/
theorem exec_rxFrame_in_time : exec (.rxFrame ts ready ctx fail px) s =
      if !ctx || !ready then done (clearOutputs s)
      else if fail || px.isEmpty then failedFrame ts (clearOutputs s)
      else processSample (frameBrightness px) (timeOf ts)
        (setRx (recordBrightness (frameBrightness px) s.rx) (clearOutputs s)) := by
  have inTime : frameBackwards (timeOf ts) (clearOutputs s) = false := frameBackwards_eq_false.mpr order
  have running : (clearOutputs s).rx.active = true := active
  simp only [exec, execRxFrame, rxFrame, running, inTime, Bool.not_true, Bool.false_eq_true, if_false]
  rfl

theorem exec_rxFrame_of_unready (unready : ctx = false ∨ ready = false) :
    exec (.rxFrame ts ready ctx fail px) s = done (clearOutputs s) := by
  rw [exec_rxFrame_in_time active order, if_pos (by simpa using unready)]

theorem exec_rxFrame_of_failed (failed : fail = true ∨ px = []) :
    exec (.rxFrame ts true true fail px) s = failedFrame ts (clearOutputs s) := by
  rw [exec_rxFrame_in_time active order, if_neg (by simp), if_pos (by simpa using failed)]

/-- A frame that takes a sample is processed with it, behind the writes and events of its earlier steps. -/
theorem exec_rxFrame_of_takes {b bright : Rat} {logged : List Event} (takes : FrameTakes s ts fail px b bright logged) :
    exec (.rxFrame ts true true fail px) s =
      processSample b (timeOf ts)
        { s with rx := { s.rx with bright := bright }, response := none, events := logged } := by
  obtain ⟨ok, pixels, rfl, rfl, rfl⟩ | ⟨failed, listed, rfl, rfl⟩ := takes
  · rw [exec_rxFrame_in_time active order, if_neg (by simp), if_neg (by simp [ok, pixels])]
    rfl
  · have sample : failedSample (clearOutputs s).config ts = some b := listed
    simp only [exec_rxFrame_of_failed active order failed, failedFrame, sample]
    rfl

end Gates

/-- Settles O37: an unready frame ends at the second gate. -/
theorem unreadyFrameIsSkippedSilently : Obligations.UnreadyFrameIsSkippedSilently := by
  intro ts ready ctx fail px s active unready order
  rw [← timeOf_eq] at order
  exact exec_rxFrame_of_unready active order unready

/-- A listed sample comes from an entry for the frame's time (93 entry U5). -/
theorem exists_mem_of_failedSample {c : Config} {ts : BitVec 64} {b : Rat} (h : failedSample c ts = some b) :
    ∃ q, (ts, q) ∈ c.failedFrames ∧ b = max 0 (min 255 q) := by
  obtain ⟨⟨time, q⟩, found, rfl⟩ := Option.map_eq_some_iff.mp h
  obtain rfl : time = ts := by simpa using List.find?_some found
  exact ⟨q, List.mem_of_find?_eq_some found, rfl⟩

/-- Settles O38: a failed frame that is not listed is missed, and a listed sample is a brightness. -/
theorem failedFrameIsOnlyLogged : Obligations.FailedFrameIsOnlyLogged := by
  intro ts fail px s active failed order
  rw [← timeOf_eq] at order
  refine ⟨fun missed => ?missed, fun unlisted => failedSample_empty unlisted ts, fun b listed => ?listed⟩
  case missed =>
    have sample : failedSample (clearOutputs s).config ts = none := missed
    simp only [exec_rxFrame_of_failed active order failed, failedFrame, sample]
    rfl
  case listed =>
    obtain ⟨lo, hi⟩ := failedSample_range listed
    exact ⟨lo, hi, exists_mem_of_failedSample listed⟩

/-! ### A processed frame (rules R127, R129 to R132) -/

theorem periodCloses_iff (t : Time) (rx : RxState) : periodCloses t rx = true ↔ 80 / 3 ≤ t - rx.winAnchor := by
  rw [periodCloses, decide_eq_true_iff, closeAfter_eq]

theorem periodCloses_eq_false_iff (t : Time) (rx : RxState) :
    periodCloses t rx = false ↔ t - rx.winAnchor < 80 / 3 := by
  rw [← Bool.not_eq_true, periodCloses_iff, not_le]

/-- A sample's effect before the close test, register by register. -/
theorem takeSample_eq (c : Config) (b : Rat) (t : Time) (rx : RxState) :
    takeSample c b t rx = { rx with
      first := false
      winAnchor := if rx.first then t else rx.winAnchor
      fpsCount := if 1000 ≤ t - (if rx.first then t else rx.fpsT0) then 0 else rx.fpsCount + 1
      measFps := if 1000 ≤ t - (if rx.first then t else rx.fpsT0) then ((rx.fpsCount + 1 : Nat) : Rat) else rx.measFps
      fpsT0 := if 1000 ≤ t - (if rx.first then t else rx.fpsT0) then t else (if rx.first then t else rx.fpsT0)
      win := windowKeeps c rx.win b ++ [b] } := by
  rw [takeSample, countFrame_eq, anchorWindow_eq, addSample]

/-- The effect of a sample that closes a period of a run already begun and decides the bit `bit`, register by
register. -/
theorem closePeriod_takeSample_eq {rx : RxState} (first : rx.first = false) {c : Config} {b : Rat} {bit : Bool}
    (decided : classifyBit rx.threshold rx.cls (mean (windowKeeps c rx.win b ++ [b])) = bit) (t : Time) :
    closePeriod t (takeSample c b t rx) = { rx with
      win := [], winAnchor := t
      fpsCount := if 1000 ≤ t - rx.fpsT0 then 0 else rx.fpsCount + 1
      measFps := if 1000 ≤ t - rx.fpsT0 then ((rx.fpsCount + 1 : Nat) : Rat) else rx.measFps
      fpsT0 := if 1000 ≤ t - rx.fpsT0 then t else rx.fpsT0
      cls := classifierAfter bit, lastBit := some bit
      stream := appendBit bit rx.stream } := by
  have periodBit_eq : periodBit (takeSample c b t rx) = bit := by
    simpa only [periodBit, takeSample_threshold, takeSample_cls, takeSample_win] using decided
  rw [closePeriod, periodBit_eq, classifyWrites, takeSample_eq]
  simp only [first, Bool.false_eq_true, if_false]

theorem processSample_of_open {b : Rat} {t : Time} {s : State}
    (stillOpen : periodCloses t (takeSample s.config b t s.rx) = false) :
    processSample b t s = done (setRxTime t (setRx (takeSample s.config b t s.rx) s)) := by
  simp [processSample, stillOpen]

theorem processSample_of_closes {b : Rat} {t : Time} {s : State}
    (closes : periodCloses t (takeSample s.config b t s.rx) = true) :
    processSample b t s = done (runMatch (setRxTime t (setRx (closePeriod t (takeSample s.config b t s.rx)) s))) := by
  simp [processSample, closes]

theorem runMatch_of_not_found {s : State} (h : s.rx.expected = [] ∨ patternFound s.rx.expected s.rx.stream = false) :
    runMatch s = s := by
  obtain ⟨ne, found, -⟩ | ⟨-, same⟩ := runMatch_cases s
  · exact absurd h (by simp [ne, found])
  · exact same

theorem runMatch_of_found {s : State} (ne : s.rx.expected ≠ [])
    (found : patternFound s.rx.expected s.rx.stream = true) : runMatch s = matchAction s := by
  rw [runMatch, if_neg ne, if_pos found]

/-- Settles O39: the sample is taken and the period stays open. -/
theorem frameBeforeTheClosePointAccumulates : Obligations.FrameBeforeTheClosePointAccumulates := by
  intro ts fail px s b bright logged active takes t anchor t0 kept held inTime before
  have time : timeOf ts = t := timeOf_eq ts
  have order : s.rx.first = false → s.rxTime ≤ timeOf ts ∧ s.rx.winAnchor ≤ timeOf ts := by
    intro first
    rw [time]
    exact ⟨held first, by simpa [anchor, first] using inTime⟩
  refine ⟨?frame, fun room => windowKeeps_of_room room b, windowKeeps_sublist .., fun n bound =>
    windowKeeps_length bound ..⟩
  rw [exec_rxFrame_of_takes active order takes, time, processSample_of_open, takeSample_eq]
  · rfl
  · rw [periodCloses_eq_false_iff, takeSample_winAnchor]
    exact before

/-- A frame that takes a sample at or after the close point of a run already begun runs MATCH on the registers of the
closed period. -/
theorem exec_rxFrame_at_close {ts : BitVec 64} {fail : Bool} {px : List Pixel} {s : State} {b bright : Rat}
    {logged : List Event} (active : s.rx.active = true) (takes : FrameTakes s ts fail px b bright logged)
    (first : s.rx.first = false) (held : s.rxTime ≤ timeOf ts) (closes : 80 / 3 ≤ timeOf ts - s.rx.winAnchor) :
    exec (.rxFrame ts true true fail px) s = done (runMatch { s with
      rx := closePeriod (timeOf ts) (takeSample s.config b (timeOf ts) { s.rx with bright := bright })
      rxTime := timeOf ts, response := none, events := logged }) := by
  have anchored : s.rx.winAnchor ≤ timeOf ts := by linarith
  rw [exec_rxFrame_of_takes active (fun _ => ⟨held, anchored⟩) takes, processSample_of_closes]
  · rfl
  · rw [periodCloses_iff, takeSample_winAnchor, if_neg (by simp [first])]
    exact closes

/-- Settles O40: the period closes and MATCH leaves the run as it is. -/
theorem frameAtTheClosePointDecidesABit : Obligations.FrameAtTheClosePointDecidesABit := by
  intro ts fail px s b bright logged active takes first held closes t win bit notFound
  rw [← timeOf_eq] at held closes
  rw [exec_rxFrame_at_close active takes first held closes,
    closePeriod_takeSample_eq (rx := { s.rx with bright := bright }) (bit := bit) first rfl, runMatch_of_not_found,
    timeOf_eq]
  · rfl
  · exact notFound

/-- Settles O41: the period closes and MATCH finds the expected code, in a run that holds the camera. -/
theorem matchIsReportedAndStopsTheRun : Obligations.MatchIsReportedAndStopsTheRun := by
  intro ts fail px s b bright logged active takes first held closes t win bit fps ne found
  rw [← timeOf_eq] at held closes
  rw [exec_rxFrame_at_close active takes first held closes,
    closePeriod_takeSample_eq (rx := { s.rx with bright := bright }) (bit := bit) first rfl, runMatch_of_found,
    matchAction_eq, if_pos active, rxStatusOf, active, List.append_assoc, timeOf_eq]
  · rfl
  · exact ne
  · exact found

end Sys2Proof.Machine

/-! ## CLASSIFY: the table and the dead band (rules R141 to R146) -/

namespace Sys2Proof.Machine

/-! ### The bit, by the state before it -/

theorem classifyBit_unknown (T m : Rat) : classifyBit T .unknown m = decide (T < m) := rfl

theorem classifyBit_lastWasOne (T m : Rat) : classifyBit T .lastWasOne m = decide (T - 20 ≤ m) := by
  rw [classifyBit, lowThreshold, literals_hyst, ← decide_not, decide_eq_decide]
  exact not_lt

theorem classifyBit_lastWasZero (T m : Rat) : classifyBit T .lastWasZero m = decide (T + 20 < m) := by
  rw [classifyBit, highThreshold, literals_hyst]

theorem classifierAfter_true : classifierAfter true = .lastWasOne := rfl

theorem classifierAfter_false : classifierAfter false = .lastWasZero := rfl

/-! ### The bits of a sequence of means -/

theorem classifyAll_nil (T : Rat) (cls : Classifier) : classifyAll T cls [] = [] := rfl

theorem classifyAll_cons_of_bit {T m : Rat} {cls : Classifier} {bit : Bool} (decided : classifyBit T cls m = bit)
    (ms : List Rat) : classifyAll T cls (m :: ms) = bit :: classifyAll T (classifierAfter bit) ms := by
  rw [← decided]
  rfl

/-- The worked sequence of rule R146: 100 flips the bit (it lies below 108) and then cannot flip it back, only 200
can. -/
theorem classifyAll_worked_sequence :
    classifyAll 128 .unknown [150, 150, 100, 100, 60, 200] = [true, true, false, false, false, true] := by
  have first : classifyBit 128 .unknown 150 = true := by norm_num [classifyBit_unknown]
  have stays : classifyBit 128 .lastWasOne 150 = true := by norm_num [classifyBit_lastWasOne]
  have falls : classifyBit 128 .lastWasOne 100 = false := by norm_num [classifyBit_lastWasOne]
  have low : classifyBit 128 .lastWasZero 100 = false := by norm_num [classifyBit_lastWasZero]
  have lower : classifyBit 128 .lastWasZero 60 = false := by norm_num [classifyBit_lastWasZero]
  have rises : classifyBit 128 .lastWasZero 200 = true := by norm_num [classifyBit_lastWasZero]
  rw [classifyAll_cons_of_bit first, classifierAfter_true, classifyAll_cons_of_bit stays, classifierAfter_true,
    classifyAll_cons_of_bit falls, classifierAfter_false, classifyAll_cons_of_bit low, classifierAfter_false,
    classifyAll_cons_of_bit lower, classifierAfter_false, classifyAll_cons_of_bit rises, classifyAll_nil]

/-- Settles O47: each row of the table, and the worked sequence. -/
theorem classifierFollowsItsTable : Obligations.ClassifierFollowsItsTable := by
  refine ⟨fun T m => ⟨?unknown, ?one, ?zero⟩, classifierAfter_true, classifierAfter_false,
    classifyAll_worked_sequence⟩
  case unknown => rw [classifyBit_unknown, decide_eq_true_iff]
  case one => rw [classifyBit_lastWasOne, decide_eq_true_iff]
  case zero => rw [classifyBit_lastWasZero, decide_eq_true_iff]

/-! ### The dead band -/

/-- After `'1'` only a mean below the dead band flips the bit, after `'0'` only one above it (rules R143, R144). -/
theorem classifyBit_of_mem_deadBand {T m : Rat} (lo : T - 20 ≤ m) (hi : m ≤ T + 20) (last : Bool) :
    classifyBit T (classifierAfter last) m = last := by
  cases last with
  | true => rw [classifierAfter_true, classifyBit_lastWasOne, decide_eq_true lo]
  | false => rw [classifierAfter_false, classifyBit_lastWasZero, decide_eq_false (not_lt.mpr hi)]

/-- Settles O48, by induction over the means: a mean inside the dead band repeats the last bit, and so leaves the
classifier's state as it was. -/
theorem deadBandNeverFlipsTheBit : Obligations.DeadBandNeverFlipsTheBit := by
  intro T last ms inside
  induction ms with
  | nil => exact classifyAll_nil ..
  | cons m ms ih =>
    obtain ⟨⟨lo, hi⟩, rest⟩ := List.forall_mem_cons.mp inside
    rw [classifyAll_cons_of_bit (classifyBit_of_mem_deadBand lo hi last), ih rest, List.length_cons,
      List.replicate_succ]

end Sys2Proof.Machine

/-! ## The pattern matcher (43_pattern_matcher.md) -/

namespace Sys2Proof.Machine

/-! ### APPEND (rule R151) -/

/-- Settles O49: the eviction, the capacity and the newest bit of APPEND. -/
theorem appendEvictsOnlyTheOldestBit : Obligations.AppendEvictsOnlyTheOldestBit :=
  fun bit _ bound => ⟨appendBit_of_le bound bit, appendBit_length_le bound bit, appendBit_getLast? bound bit⟩

/-! ### The search window (rules R153, R154) -/

/-- The symbols that MATCH searches: the trailing window of the stream (rule R153). -/
def searchWindow (expected : List Symbol) (stream : List Bool) : List Symbol :=
  (stream.map symOf).drop (stream.length - min stream.length (2 * expected.length))

theorem searchWindow_suffix (expected : List Symbol) (stream : List Bool) :
    searchWindow expected stream <:+ stream.map symOf := List.drop_suffix ..

theorem searchWindow_length (expected : List Symbol) (stream : List Bool) :
    (searchWindow expected stream).length = min stream.length (2 * expected.length) := by
  rw [searchWindow, List.length_drop, List.length_map]
  omega

/-- The window holds every end of the stream that is no longer than twice the code. -/
theorem suffix_searchWindow {expected l : List Symbol} {stream : List Bool} (suffix : l <:+ stream.map symOf)
    (short : l.length ≤ 2 * expected.length) : l <:+ searchWindow expected stream := by
  refine List.suffix_of_suffix_length_le suffix (searchWindow_suffix ..) ?_
  rw [searchWindow_length, ← List.length_map symOf]
  exact le_min suffix.length_le short

/-- The model's loops over places and symbols: the code stands at a place of the window. -/
theorem patternFound_iff_exists (expected : List Symbol) (stream : List Bool) :
    patternFound expected stream = true ↔
      ∃ k, expected.length + k ≤ (searchWindow expected stream).length ∧
        ∀ j (h : j < expected.length), (searchWindow expected stream)[j + k]? = some expected[j] := by
  rw [searchWindow_length]
  simp only [patternFound, windowLength, literals_matchWindowFactor, List.any_eq_true, List.all_eq_true,
    List.mem_range, beq_iff_eq]
  refine exists_congr fun k => and_congr (by omega) (forall₂_congr fun j inside => ?_)
  rw [List.getElem?_eq_getElem inside, searchWindow, List.getElem?_drop, List.getElem?_map, Nat.add_assoc,
    Nat.add_comm k j]

/-- The search finds exactly the substrings of the window. -/
theorem patternFound_iff (expected : List Symbol) (stream : List Bool) :
    patternFound expected stream = true ↔ expected <:+: searchWindow expected stream := by
  rw [patternFound_iff_exists, List.infix_iff_getElem?]

/-- What is found stands in the stream. -/
theorem isInfix_of_patternFound {expected : List Symbol} {stream : List Bool}
    (found : patternFound expected stream = true) : expected <:+: stream.map symOf :=
  ((patternFound_iff ..).mp found).trans (searchWindow_suffix ..).isInfix

theorem symOf_eq_zero_or_one (bit : Bool) : symOf bit = 0x30 ∨ symOf bit = 0x31 := by
  cases bit with
  | false => exact .inl rfl
  | true => exact .inr rfl

/-- Settles O51: a code that is found stands in the stream, so it has the stream's symbols and at most its length. -/
theorem searchFindsExactlyASubstringOfTheWindow : Obligations.SearchFindsExactlyASubstringOfTheWindow := by
  intro expected stream
  refine ⟨patternFound_iff expected stream, ?symbol, ?long⟩ <;> rw [← Bool.not_eq_true]
  case symbol =>
    rintro ⟨x, inCode, notZero, notOne⟩ found
    obtain ⟨bit, -, rfl⟩ := List.mem_map.mp ((isInfix_of_patternFound found).subset inCode)
    exact (symOf_eq_zero_or_one bit).elim notZero notOne
  case long =>
    intro bound long found
    have fits := (isInfix_of_patternFound found).length_le
    rw [List.length_map] at fits
    omega

/-! ### A match ends at the new bit (rule R157) -/

/-- APPEND puts the bit behind an end of the stream: all of it, or all but its oldest bit (rule R151). -/
theorem exists_suffix_appendBit {stream : List Bool} (bound : stream.length ≤ 100) (bit : Bool) :
    ∃ kept, kept <:+ stream ∧ appendBit bit stream = kept ++ [bit] := by
  refine ⟨_, ?_, appendBit_of_le bound bit⟩
  split
  · exact List.suffix_rfl
  · exact List.drop_suffix ..

/-- A code that the search finds only now ends at the bit just appended: without that bit the new window is an end of
the stream before it that the old window held, and the code did not stand there. -/
theorem suffix_of_found_after_appendBit {expected : List Symbol} {stream : List Bool} {bit : Bool}
    (bound : stream.length ≤ 100) (ne : expected ≠ []) (before : patternFound expected stream = false)
    (found : patternFound expected (appendBit bit stream) = true) :
    expected <:+ (appendBit bit stream).map symOf := by
  obtain ⟨kept, keptSuffix, appended⟩ := exists_suffix_appendBit bound bit
  have inWindow := (patternFound_iff ..).mp found
  have windowSuffix := searchWindow_suffix expected (appendBit bit stream)
  have symbols : (appendBit bit stream).map symOf = kept.map symOf ++ [symOf bit] := by simp [appended]
  obtain empty | ⟨older, window, olderSuffix⟩ := List.suffix_concat_iff.mp (symbols ▸ windowSuffix)
  · exact absurd (List.infix_nil.mp (empty ▸ inWindow)) ne
  · obtain atEnd | inOlder := List.infix_concat_iff.mp (window ▸ inWindow)
    · exact (window ▸ atEnd : expected <:+ searchWindow expected (appendBit bit stream)).trans windowSuffix
    · have short : older.length ≤ 2 * expected.length := by
        have length := searchWindow_length expected (appendBit bit stream)
        rw [window, List.length_append, List.length_singleton] at length
        omega
      have oldWindow := suffix_searchWindow (olderSuffix.trans (keptSuffix.map symOf)) short
      have foundBefore := (patternFound_iff ..).mpr (inOlder.trans oldWindow.isInfix)
      exact absurd (before.symm.trans foundBefore) nofun

/-! ### The match event (rules R155, R197) -/

/-- No step of a frame before MATCH emits EV_MATCH. -/
theorem FrameTakes.matched_not_mem {s : State} {ts : BitVec 64} {fail : Bool} {px : List Pixel} {b bright : Rat}
    {logged : List Event} (takes : FrameTakes s ts fail px b bright logged) (snapshot : RxStatus) :
    Event.matched snapshot ∉ logged := by
  obtain ⟨-, -, -, -, rfl⟩ | ⟨-, -, -, rfl⟩ := takes <;> simp

/-- What a frame that emits EV_MATCH has done: it took a sample in an active run, the sample closed the period, the
code was found, and the match action followed (rule R155). -/
theorem exec_rxFrame_of_matched {ts : BitVec 64} {ready ctx fail : Bool} {px : List Pixel} {s s' : State}
    {snapshot : RxStatus} (hs : exec (.rxFrame ts ready ctx fail px) s = .next s')
    (matched : Event.matched snapshot ∈ s'.events) :
    ready = true ∧ ctx = true ∧ s.rx.active = true ∧ ∃ b bright logged closed,
      FrameTakes s ts fail px b bright logged ∧
      closed = closePeriod (timeOf ts) (takeSample s.config b (timeOf ts) { s.rx with bright := bright }) ∧
      closed.expected ≠ [] ∧ patternFound closed.expected closed.stream = true ∧
      snapshot = { rxStatusOf closed with matchResult := .granted } ∧
      s'.rx = rxStopWrites closed ∧ s'.events = logged ++ [.matched snapshot, .camRelease] := by
  rcases exec_rxFrame_cases hs with ⟨-, rfl⟩ | ⟨-, -, -, rfl⟩ |
    ⟨active, hctx, hready, -, b, rx0, logged, taken, rx, rfl, outcome⟩
  · simp at matched
  · simp at matched
  · obtain ⟨bright, rfl, takes⟩ :
        ∃ bright, rx0 = { s.rx with bright := bright } ∧ FrameTakes s ts fail px b bright logged := by
      obtain ⟨failed, listed, rfl, rfl⟩ | ⟨ok, pixels, rfl, rfl, rfl⟩ := taken
      · exact ⟨s.rx.bright, rfl, .inr ⟨failed, listed, rfl, rfl⟩⟩
      · exact ⟨_, rfl, .inl ⟨ok, pixels, rfl, rfl, rfl⟩⟩
    have unlogged := takes.matched_not_mem snapshot
    obtain ⟨-, rfl⟩ | ⟨-, closed, rfl, ⟨-, rfl⟩ | ⟨ne, found, rfl⟩⟩ := outcome
    · exact absurd matched unlogged
    · exact absurd matched unlogged
    · obtain rfl : snapshot = _ := by simpa [unlogged] using matched
      exact ⟨hready, hctx, active, b, bright, logged, _, takes, rfl, ne, found, rfl, rfl, rfl⟩

/-- Only `RX.FRAME` emits EV_MATCH. -/
theorem exists_rxFrame_of_matched {i : Instr} {s s' : State} {snapshot : RxStatus} (hs : exec i s = .next s')
    (matched : Event.matched snapshot ∈ s'.events) : ∃ ts ready ctx fail px, i = .rxFrame ts ready ctx fail px := by
  cases i with
  | rxFrame ts ready ctx fail px => exact ⟨ts, ready, ctx, fail, px, rfl⟩
  | txStart now fps code =>
    rw [exec_txStart] at hs
    cases hs
    split at matched <;> cases matched
  | txTick ts =>
    rcases exec_txTick_cases hs with ⟨-, rfl⟩ | ⟨-, -, -, -, -, rfl⟩ | ⟨-, -, -, -, -, bit, -, rfl⟩ |
      ⟨-, -, -, -, -, -, -, idx, -, rfl⟩
    · simp at matched
    · simp at matched
    · simp at matched
    · dsimp only at matched
      split at matched <;> simp at matched
  | rxStart video draw grant cid srcw srch thr expected =>
    rw [exec_rxStart] at hs
    cases hs
    dsimp only at matched
    split_ifs at matched <;> simp at matched
  | rxStop =>
    rw [exec_rxStop] at hs
    cases hs
    dsimp only at matched
    split at matched <;> simp at matched
  | _ => cases hs; cases matched

/-- Settles O43: the frame's events are those of its earlier steps and of the match action, which ends the run. -/
theorem matchEventEndsItsRun : Obligations.MatchEventEndsItsRun := by
  intro i s s' snapshot hs matched
  obtain ⟨ts, ready, ctx, fail, px, rfl⟩ := exists_rxFrame_of_matched hs matched
  obtain ⟨rfl, rfl, active, b, bright, logged, closed, takes, rfl, -, -, rfl, rx, events⟩ :=
    exec_rxFrame_of_matched hs matched
  refine ⟨⟨ts, fail, px, rfl, ?events⟩, active, ?snapshot, rfl, ?stopped⟩
  case events =>
    obtain ⟨-, -, -, -, rfl⟩ | ⟨failed, listed, -, rfl⟩ := takes
    · exact .inl events
    · exact .inr ⟨failed, by rw [listed, Option.isSome_some], events⟩
  case snapshot => simpa [rxStatusOf] using active
  case stopped =>
    rw [rx]
    exact ⟨rfl, rfl, rfl, rfl⟩

/-- Settles O52: under the invariant the code was not found before the frame's bit. -/
theorem matchEndsAtTheNewBit : Obligations.MatchEndsAtTheNewBit := by
  intro ts ready ctx fail px s s' snapshot inv hs matched
  obtain ⟨-, -, -, b, bright, logged, closed, -, rfl, ne, found, rfl, -, -⟩ := exec_rxFrame_of_matched hs matched
  rw [closePeriod_expected, takeSample_expected] at ne found
  rw [closePeriod_stream, takeSample_stream] at found
  refine ⟨?_, ne⟩
  rw [rxStatusOf, closePeriod_stream, takeSample_stream]
  exact suffix_of_found_after_appendBit (literals_streamCap ▸ inv.streamBound) ne (inv.notYetFound ne) found

end Sys2Proof.Machine

/-! ## The decoder's control commands (44_decoder_control.md) -/

namespace Sys2Proof.Machine

/-! ### RX.STOP, RX.RESET, RX.STATUS (rules R170 to R173) -/

/-- Settles O31: the writes of the stop, and the release of a held camera. -/
theorem rxStopClearsTheThreeEntities : Obligations.RxStopClearsTheThreeEntities :=
  ⟨rfl, exec_rxStop⟩

/-- Settles O32: the first stop leaves the instance inactive and the values that a second one writes. -/
theorem rxStopIsIdempotent : Obligations.RxStopIsIdempotent := by
  intro s s' hs
  rw [exec_rxStop] at hs
  cases hs
  exact exec_rxStop _

/-- Settles O33: the reset writes the three entities alone. -/
theorem rxResetKeepsTheCapturePipeline : Obligations.RxResetKeepsTheCapturePipeline :=
  ⟨rfl, exec_rxReset⟩

/-- Settles O34: the record of the status is made of the registers, and a good state never holds a match. -/
theorem rxStatusReadsTheObservableState : Obligations.RxStatusReadsTheObservableState :=
  ⟨rfl, fun s => ⟨exec_rxStatus s, RxInv.notGranted⟩⟩

/-! ### RX.START past its surface check (rules R167 to R169) -/

theorem camRequest_eq (cid : Option (List Byte)) : camRequest cid = ⟨cid, 640, 480, 30, 15⟩ := by
  simp [camRequest]

theorem sizeTarget_eq (srcw srch : BitVec 16) (rx : RxState) :
    sizeTarget srcw srch rx =
      { rx with drawW := if srcw = 0 then 640 else srcw, drawH := if srch = 0 then 480 else srch } := by
  simp [sizeTarget]

/-- A stop before the start clears the decoding state of a prior run, and either way no run is left. -/
theorem implicit_rxStop_eq (rx : RxState) :
    (if rx.active then rxStopWrites rx else rx) = { rx with
      active := false
      stream := if rx.active then [] else rx.stream
      cls := if rx.active then .unknown else rx.cls
      matchResult := if rx.active then .none else rx.matchResult } := by
  obtain ⟨active⟩ := rx
  cases active <;> rfl

section PastSurface

variable (cid : Option (List Byte)) (srcw srch : BitVec 16) (thr : BitVec 32) {e : List Symbol} {s : State}

/-- A start whose expected code passes runs its sequence, and the platform's answer decides how it ends. -/
theorem exec_rxStart_of_passes (grant : Bool)
    (passes : s.config.rxValidateCode = false ∨ e = [] ∨ isBinaryCode e = true) :
    exec (.rxStart true true grant cid srcw srch thr e) s = .next (
      let sized := sizeTarget srcw srch (if s.rx.active then rxStopWrites s.rx else s.rx)
      { s with
        rx := if grant then beginRun (q16 thr) e sized else sized
        response := some ⟨if grant then .ok else .cameraAcquisitionFailure, .nothing⟩
        events := (if s.rx.active then [.camRelease] else []) ++ [.camAcquire (camRequest cid)] }) := by
  have unchecked : ¬ (s.config.rxValidateCode = true ∧ e ≠ [] ∧ isBinaryCode e = false) := by
    rintro ⟨check, ne, bad⟩
    simp [check, ne, bad] at passes
  rw [exec_rxStart, if_neg (by simp), if_neg unchecked]
  cases grant <;> rfl

/-- A start whose expected code is refused ends before it touches a register (rule R168). -/
theorem exec_rxStart_of_badCode (grant : Bool) (check : s.config.rxValidateCode = true)
    (bad : ∃ x ∈ e, x ≠ 0x30 ∧ x ≠ 0x31) :
    exec (.rxStart true true grant cid srcw srch thr e) s =
      .next { s with response := some ⟨.invalidCodeFormat, .nothing⟩, events := [] } := by
  have ne : e ≠ [] := by
    obtain ⟨x, hx, -⟩ := bad
    exact List.ne_nil_of_mem hx
  rw [exec_rxStart, if_neg (by simp), if_pos ⟨check, ne, isBinaryCode_eq_false (.inr bad)⟩]

end PastSurface

/-- Settles O29: the two ends of a start whose code passes, each register by the step that writes it. -/
theorem rxStartRunsItsSequence : Obligations.RxStartRunsItsSequence := by
  intro cid w h thr e s passes
  rw [exec_rxStart_of_passes cid w h thr false passes, exec_rxStart_of_passes cid w h thr true passes,
    camRequest_eq, sizeTarget_eq, implicit_rxStop_eq]
  exact ⟨rfl, rfl⟩

/-- Settles O30: the check refuses the code, or the start takes the branch of the device without the check. -/
theorem rxStartUnderCodeValidation : Obligations.RxStartUnderCodeValidation := by
  intro grant cid w h thr e s check
  refine ⟨exec_rxStart_of_badCode cid w h thr grant check, fun binary => ?sameAsUnchecked⟩
  have passes : e = [] ∨ isBinaryCode e = true := or_iff_not_imp_left.mpr fun ne => (isBinaryCode_iff e).mpr ⟨ne, binary⟩
  exact ⟨_, exec_rxStart_of_passes cid w h thr grant (.inl rfl), exec_rxStart_of_passes cid w h thr grant (.inr passes)⟩

/-! ### The status of any command (rules R190 to R194) -/

/-- `TX.START` is accepted, or is refused and leaves every register. -/
theorem exec_txStart_status {now : BitVec 64} {fps : BitVec 32} {code : List Symbol} {s s' : State}
    (hs : exec (.txStart now fps code) s = .next s') :
    s'.response = some ⟨.ok, .nothing⟩ ∨
      s' = { s with response := some ⟨.invalidCodeFormat, .nothing⟩, events := [] } := by
  rw [exec_txStart] at hs
  cases hs
  split
  · exact .inl rfl
  · exact .inr rfl

/-- `RX.START` is granted, or fails by one of its three checks, in the order of rule R193. -/
theorem exec_rxStart_status {video draw grant : Bool} {cid : Option (List Byte)} {srcw srch : BitVec 16}
    {thr : BitVec 32} {e : List Symbol} {s s' : State}
    (hs : exec (.rxStart video draw grant cid srcw srch thr e) s = .next s') :
    s'.response = some ⟨.ok, .nothing⟩ ∨
    s' = { s with response := some ⟨.missingCaptureSurface, .nothing⟩, events := [] } ∨
    (video = true ∧ draw = true ∧ s.config.rxValidateCode = true ∧
      s' = { s with response := some ⟨.invalidCodeFormat, .nothing⟩, events := [] }) ∨
    (video = true ∧ draw = true ∧ grant = false ∧ s'.response = some ⟨.cameraAcquisitionFailure, .nothing⟩ ∧
      s'.rx.active = false) := by
  rw [exec_rxStart] at hs
  cases hs
  dsimp only
  split
  · exact .inr (.inl rfl)
  · next surface =>
    obtain ⟨hvideo, hdraw⟩ : video = true ∧ draw = true := by simpa using surface
    split
    · next refused =>
      obtain ⟨check, -, -⟩ := refused
      exact .inr (.inr (.inl ⟨hvideo, hdraw, check, rfl⟩))
    · cases grant with
      | true => exact .inl rfl
      | false => exact .inr (.inr (.inr ⟨hvideo, hdraw, rfl, rfl, by simp [implicit_rxStop_eq]⟩))

/-- `TX.TICK` answers no fault. -/
theorem exec_txTick_status {ts : BitVec 64} {s s' : State} (hs : exec (.txTick ts) s = .next s') :
    s'.response = some ⟨.ok, .nothing⟩ := by
  rcases exec_txTick_cases hs with ⟨-, rfl⟩ | ⟨-, -, -, -, -, rfl⟩ | ⟨-, -, -, -, -, bit, -, rfl⟩ |
    ⟨-, -, -, -, -, -, -, idx, -, rfl⟩ <;>
  rfl

/-- `RX.FRAME` answers no fault: a failed frame is only logged (rules R123, R193). -/
theorem exec_rxFrame_status {ts : BitVec 64} {ready ctx fail : Bool} {px : List Pixel} {s s' : State}
    (hs : exec (.rxFrame ts ready ctx fail px) s = .next s') : s'.response = some ⟨.ok, .nothing⟩ := by
  rcases exec_rxFrame_cases hs with ⟨-, rfl⟩ | ⟨-, -, -, rfl⟩ |
    ⟨-, -, -, -, b, rx0, logged, -, rx, -, ⟨-, rfl⟩ | ⟨-, closed, -, ⟨-, rfl⟩ | ⟨-, -, rfl⟩⟩⟩ <;>
  rfl

/-- A command that is no start answers OK. -/
theorem exec_status_of_not_start {i : Instr} {s s' : State} (hs : exec i s = .next s')
    (notTxStart : instrOpcode i ≠ .txStart) (notRxStart : instrOpcode i ≠ .rxStart) :
    ∃ d, s'.response = some ⟨.ok, d⟩ := by
  cases i with
  | txStart => exact absurd rfl notTxStart
  | rxStart => exact absurd rfl notRxStart
  | txTick ts => exact ⟨_, exec_txTick_status hs⟩
  | rxFrame ts ready ctx fail px => exact ⟨_, exec_rxFrame_status hs⟩
  | _ => cases hs; exact ⟨_, rfl⟩

theorem not_fault_of_ok {s : State} {f : Status} {d d' : ResponseData} (ok : s.response = some ⟨.ok, d'⟩)
    (answer : s.response = some ⟨f, d⟩) : f = .ok := by
  rw [ok] at answer
  cases answer
  rfl

/-- Settles O59: only the two starts answer a fault, each by one of its own checks. -/
theorem faultsLeaveTheRegistersAlone : Obligations.FaultsLeaveTheRegistersAlone := by
  intro i s s' f d hs answer fault
  cases i with
  | txStart now fps code =>
    obtain ok | rfl := exec_txStart_status hs
    · exact absurd (not_fault_of_ok ok answer) fault
    · cases answer
      exact ⟨rfl, rfl, .inl ⟨rfl, rfl, rfl, .inl ⟨now, fps, code, rfl⟩⟩⟩
  | rxStart video draw grant cid srcw srch thr e =>
    obtain ⟨sameTx, -⟩ := exec_keeps_tx (by simp [isTx, instrOpcode, opcodeByte]) hs
    obtain ok | rfl | ⟨rfl, rfl, check, rfl⟩ | ⟨rfl, rfl, rfl, refused, inactive⟩ := exec_rxStart_status hs
    · exact absurd (not_fault_of_ok ok answer) fault
    · cases answer
      exact ⟨rfl, sameTx, .inr (.inl ⟨rfl, rfl, rfl, video, draw, grant, cid, srcw, srch, thr, e, rfl⟩)⟩
    · cases answer
      exact ⟨rfl, sameTx, .inl ⟨rfl, rfl, rfl, .inr ⟨check, grant, cid, srcw, srch, thr, e, rfl⟩⟩⟩
    · rw [refused] at answer
      cases answer
      exact ⟨rfl, sameTx, .inr (.inr ⟨rfl, inactive, cid, srcw, srch, thr, e, rfl⟩)⟩
  | _ =>
    obtain ⟨d', ok⟩ := exec_status_of_not_start hs (by simp [instrOpcode]) (by simp [instrOpcode])
    exact absurd (not_fault_of_ok ok answer) fault

end Sys2Proof.Machine

/-! ## Faults, refusals and events (60_exceptions.md) -/

namespace Sys2Proof.Machine

/-- Settles O28: the surface check is the first of the start. -/
theorem rxStartNeedsItsCaptureSurface : Obligations.RxStartNeedsItsCaptureSurface := by
  intro video draw grant cid w h thr e s missing
  rw [exec_rxStart, if_pos missing]

/-! ### EV_TX_UPDATE (rule R198) -/

/-- The index of the visible bit is set anew: the loop begins, at index 0, or a loop iteration changes the index. -/
def SetsIndex (s s' : State) : Prop :=
  (s.tx.phase = .cal ∧ s'.tx.phase = .run ∧ s'.tx.bitIndex = 0) ∨
  (s.tx.phase = .run ∧ s'.tx.phase = .run ∧ s'.tx.bitIndex ≠ s.tx.bitIndex)

/-- A tick emits the one update of an index that it sets anew, or it emits nothing and keeps phase and index. -/
theorem exec_txTick_update {ts : BitVec 64} {s s' : State} (hs : exec (.txTick ts) s = .next s') :
    (s'.events = [.txUpdate s'.tx.curBit] ∧ SetsIndex s s') ∨
    (s'.events = [] ∧ s'.tx.phase = s.tx.phase ∧ s'.tx.bitIndex = s.tx.bitIndex) := by
  rcases exec_txTick_cases hs with ⟨-, rfl⟩ | ⟨-, -, -, -, -, rfl⟩ | ⟨-, cal, -, -, -, bit, -, rfl⟩ |
    ⟨-, run, -, -, -, -, -, idx, -, rfl⟩
  · exact .inr ⟨rfl, rfl, rfl⟩
  · exact .inr ⟨rfl, rfl, rfl⟩
  · exact .inl ⟨rfl, .inl ⟨cal, rfl, rfl⟩⟩
  · by_cases same : idx = s.tx.bitIndex
    · exact .inr (by simp [same])
    · exact .inl (by simp [SetsIndex, same, run])

/-- Only `TX.TICK` emits EV_TX_UPDATE. -/
theorem exists_txTick_of_txUpdate {i : Instr} {s s' : State} {b : Option Bool} (hs : exec i s = .next s')
    (update : Event.txUpdate b ∈ s'.events) : ∃ ts, i = .txTick ts := by
  cases i with
  | txTick ts => exact ⟨ts, rfl⟩
  | txStart now fps code =>
    rw [exec_txStart] at hs
    cases hs
    split at update <;> cases update
  | rxStart video draw grant cid srcw srch thr expected =>
    rw [exec_rxStart] at hs
    cases hs
    dsimp only at update
    split_ifs at update <;> simp at update
  | rxFrame ts ready ctx fail px =>
    rcases exec_rxFrame_cases hs with ⟨-, rfl⟩ | ⟨-, -, -, rfl⟩ |
      ⟨-, -, -, -, sample, rx0, logged, takes, rx, -, outcome⟩
    · simp at update
    · simp at update
    · have unlogged : Event.txUpdate b ∉ logged := by
        rcases takes with ⟨-, -, -, rfl⟩ | ⟨-, -, -, -, rfl⟩ <;> simp
      rcases outcome with ⟨-, rfl⟩ | ⟨-, closed, -, ⟨-, rfl⟩ | ⟨-, -, rfl⟩⟩
      · exact absurd update unlogged
      · exact absurd update unlogged
      · simp [unlogged] at update
  | rxStop =>
    rw [exec_rxStop] at hs
    cases hs
    dsimp only at update
    split at update <;> simp at update
  | _ => cases hs; cases update

/-- A command other than `TX.TICK` that leaves the loop running leaves the TX registers alone. -/
theorem exec_keeps_tx_of_run {i : Instr} {s s' : State} (hs : exec i s = .next s')
    (notTick : ∀ ts, i ≠ .txTick ts) (run : s'.tx.phase = .run) : s'.tx = s.tx := by
  cases i with
  | txTick ts => exact absurd rfl (notTick ts)
  | txStart now fps code =>
    obtain ⟨-, cal⟩ | same := exec_txStart_phase hs
    · exact absurd (cal.symm.trans run) nofun
    · exact same
  | txStop => cases hs; cases run
  | txColor => cases hs; rfl
  | txStatus => cases hs; rfl
  | _ => exact (exec_keeps_tx (by simp [isTx, instrOpcode, opcodeByte]) hs).1

/-- Everything a command that goes on has to do with EV_TX_UPDATE. -/
theorem exec_update_cases {i : Instr} {s s' : State} (hs : exec i s = .next s') :
    ((∃ ts, i = .txTick ts) ∧ s'.events = [.txUpdate s'.tx.curBit] ∧ SetsIndex s s') ∨
    ((∀ b, Event.txUpdate b ∉ s'.events) ∧
      (s'.tx.phase = .run → s.tx.phase = .run ∧ s'.tx.bitIndex = s.tx.bitIndex)) := by
  by_cases tick : ∃ ts, i = .txTick ts
  · obtain ⟨ts, rfl⟩ := tick
    obtain ⟨events, index⟩ | ⟨events, phase, index⟩ := exec_txTick_update hs
    · exact .inl ⟨⟨ts, rfl⟩, events, index⟩
    · exact .inr ⟨by simp [events], fun run => ⟨phase ▸ run, index⟩⟩
  · refine .inr ⟨fun b update => tick (exists_txTick_of_txUpdate hs update), fun run => ?_⟩
    have same : s'.tx = s.tx := exec_keeps_tx_of_run hs (not_exists.mp tick) run
    exact ⟨same ▸ run, by rw [same]⟩

/-- Settles O27: a command emits the update with its new bit and sets the index anew, or does neither. -/
theorem txUpdateMarksExactlyTheIndexChanges : Obligations.TxUpdateMarksExactlyTheIndexChanges := by
  intro i s s' hs
  obtain ⟨tick, events, index⟩ | ⟨silent, kept⟩ := exec_update_cases hs
  · rw [events]
    refine ⟨fun b update => ⟨tick, ?_, index⟩, fun _ => List.mem_singleton_self _⟩
    simpa using update
  · refine ⟨fun b update => absurd update (silent b), ?_⟩
    rintro (⟨cal, run⟩ | ⟨run, moved⟩)
    · exact absurd (cal.symm.trans (kept run).1) nofun
    · exact absurd (kept run).2 moved

/-! ### Where a good state stops (rules R190, R226; log entry 6) -/

theorem calTick_of_backwards {t : Time} {s : State} (early : t < s.txTime ∨ t < s.tx.calT0) :
    calTick t s = .refused .timeBackwards :=
  if_pos early

theorem runTick_of_backwards {t : Time} {s : State} (early : t < s.txTime ∨ t < s.tx.epoch ∨ t < s.tx.fpsT0) :
    runTick t s = .refused .timeBackwards :=
  if_pos early

/-- A good instance has a code to begin its loop with, so a calibration callback stops only before the held time, which
no time of its run lies after. -/
theorem calTick_of_good {s : State} (good : TxGood s.tx s.txTime) (cal : s.tx.phase = .cal) (t : Time) :
    (∃ s', calTick t s = .next s') ∨ (calTick t s = .refused .timeBackwards ∧ t < s.txTime) := by
  obtain early | held := lt_or_ge t s.txTime
  · exact .inr ⟨calTick_of_backwards (.inl early), early⟩
  · have start : s.tx.calT0 ≤ t := (good.calTime cal).trans held
    by_cases last : s.tx.calCount + 1 = 60
    · have code : s.tx.code ≠ [] := good.inv.codeNonempty (by simp [cal])
      exact .inl ⟨_, calTick_of_last held start last (List.getElem?_eq_getElem (List.length_pos_iff.mpr code))⟩
    · exact .inl ⟨_, calTick_of_not_last held start last⟩

/-- A good instance in its loop has a code and a positive bit duration, so a tick stops only before the held time. -/
theorem runTick_of_good {s : State} (good : TxGood s.tx s.txTime) (run : s.tx.phase = .run) (t : Time) :
    (∃ s', runTick t s = .next s') ∨ (runTick t s = .refused .timeBackwards ∧ t < s.txTime) := by
  obtain early | held := lt_or_ge t s.txTime
  · exact .inr ⟨runTick_of_backwards (.inl early), early⟩
  · obtain ⟨epoch, window⟩ := good.runTime run
    obtain ⟨-, -, -, dur, -⟩ := good.inv.running run
    have code : s.tx.code ≠ [] := good.inv.codeNonempty (by simp [run])
    exact .inl ⟨_, runTick_in_time held (epoch.trans held) (window.trans held) code dur rfl⟩

theorem exec_txTick_of_good {s : State} (good : TxGood s.tx s.txTime) (ts : BitVec 64) :
    (∃ s', exec (.txTick ts) s = .next s') ∨
    (exec (.txTick ts) s = .refused .timeBackwards ∧ s.tx.phase ≠ .idle ∧ timeOf ts < s.txTime) := by
  cases phase : s.tx.phase with
  | idle => exact .inl ⟨_, exec_txTick_of_no_run (.inr phase) ts⟩
  | cal =>
    rw [exec_txTick_of_cal (good.inv.activeIff.mpr (by simp [phase])) phase]
    exact (calTick_of_good (s := clearOutputs s) good phase _).imp_right fun ⟨refused, early⟩ => ⟨refused, nofun, early⟩
  | run =>
    rw [exec_txTick_of_run (good.inv.activeIff.mpr (by simp [phase])) phase]
    exact (runTick_of_good (s := clearOutputs s) good phase _).imp_right fun ⟨refused, early⟩ => ⟨refused, nofun, early⟩

theorem exec_rxFrame_of_backwards {ts : BitVec 64} {s : State} (active : s.rx.active = true)
    (backwards : frameBackwards (timeOf ts) s = true) (ready ctx fail : Bool) (px : List Pixel) :
    exec (.rxFrame ts ready ctx fail px) s = .refused .timeBackwards := by
  have cleared : frameBackwards (timeOf ts) (clearOutputs s) = true := backwards
  simp [exec, execRxFrame, rxFrame, active, cleared]

theorem failedFrame_next (ts : BitVec 64) (s : State) : ∃ s', failedFrame ts s = .next s' := by
  unfold failedFrame
  cases failedSample s.config ts with
  | none => exact ⟨_, rfl⟩
  | some b => exact processSample_next ..

/-- A frame whose time rule R226 allows ends in a next state at every gate. -/
theorem exec_rxFrame_next {ts : BitVec 64} {s : State} (active : s.rx.active = true)
    (inTime : frameBackwards (timeOf ts) s = false) (ready ctx fail : Bool) (px : List Pixel) :
    ∃ s', exec (.rxFrame ts ready ctx fail px) s = .next s' := by
  rw [exec_rxFrame_in_time active (frameBackwards_eq_false.mp inTime)]
  split
  · exact ⟨_, rfl⟩
  · split
    · exact failedFrame_next ..
    · exact processSample_next ..

/-- In a good instance the window's anchor does not lie after the latest processed frame. -/
theorem RxGood.early_of_frameBackwards {s : State} (good : RxGood s.rx s.rxTime) {t : Time}
    (backwards : frameBackwards t s = true) : s.rx.first = false ∧ t < s.rxTime := by
  obtain ⟨begun, early⟩ : s.rx.first = false ∧ (t < s.rxTime ∨ t < s.rx.winAnchor) := by
    simpa [frameBackwards] using backwards
  obtain ⟨anchor, -⟩ := good.frameTime begun
  exact ⟨begun, early.elim id fun before => before.trans_le anchor⟩

theorem exec_rxFrame_of_good {s : State} (good : RxGood s.rx s.rxTime) (ts : BitVec 64) (ready ctx fail : Bool)
    (px : List Pixel) :
    (∃ s', exec (.rxFrame ts ready ctx fail px) s = .next s') ∨
    (exec (.rxFrame ts ready ctx fail px) s = .refused .timeBackwards ∧
      s.rx.active = true ∧ s.rx.first = false ∧ timeOf ts < s.rxTime) := by
  cases active : s.rx.active with
  | false => exact .inl ⟨_, exec_rxFrame_of_no_run active ts ready ctx fail px⟩
  | true =>
    cases backwards : frameBackwards (timeOf ts) s with
    | false => exact .inl (exec_rxFrame_next active backwards ready ctx fail px)
    | true =>
      exact .inr ⟨exec_rxFrame_of_backwards active backwards ready ctx fail px, rfl,
        good.early_of_frameBackwards backwards⟩

/-- The command carries a time that runs backwards within a run: a tick in CAL or RUN before the held time of its
instance, or a frame of an active decoder before the latest processed one. -/
def TimeRunsBackwards (i : Instr) (s : State) : Prop :=
  (∃ ts, i = .txTick ts ∧ s.tx.phase ≠ .idle ∧ timeOf ts < s.txTime) ∨
  (∃ ts ready ctx fail px, i = .rxFrame ts ready ctx fail px ∧
    s.rx.active = true ∧ s.rx.first = false ∧ timeOf ts < s.rxTime)

/-- Of the commands only the two clocked ones can stop, and from a good state only for their time. -/
theorem exec_of_good {s : State} (good : StateInv s) (i : Instr) :
    (∃ s', exec i s = .next s') ∨ (exec i s = .refused .timeBackwards ∧ TimeRunsBackwards i s) := by
  obtain ⟨tx, rx⟩ := (stateInv_iff s).mp good
  cases i with
  | txTick ts =>
    exact (exec_txTick_of_good tx ts).imp_right fun ⟨refused, early⟩ => ⟨refused, .inl ⟨ts, rfl, early⟩⟩
  | rxFrame ts ready ctx fail px =>
    exact (exec_rxFrame_of_good rx ts ready ctx fail px).imp_right fun ⟨refused, early⟩ =>
      ⟨refused, .inr ⟨ts, ready, ctx, fail, px, rfl, early⟩⟩
  | txStart now fps code => exact .inl ⟨_, exec_txStart ..⟩
  | rxStart video draw grant cid srcw srch thr e => exact .inl ⟨_, exec_rxStart ..⟩
  | _ => exact .inl ⟨_, rfl⟩

/-- Settles O57: a step without a command goes on, and a decoded command is executed in a state as good as before. -/
theorem goodStatesStopOnlyForTime : Obligations.GoodStatesStopOnlyForTime := by
  intro s good
  rcases fetch_cases s with waits | ⟨i, rest, command, -⟩ | ⟨why, rest, -, illegal⟩
  · exact .inl ⟨clearOutputs s, by rw [step, waits]; rfl⟩
  · have executed : step s = exec i (setPort rest s) := stepRunsTheDecodedCommand s i rest command
    have stillGood : StateInv (setPort rest s) := { good with }
    simp only [executed, command, ← timeOf_eq]
    refine (exec_of_good stillGood i).imp_right fun ⟨refused, backwards⟩ => ⟨refused, ?_⟩
    obtain ⟨ts, rfl, early⟩ | ⟨ts, ready, ctx, fail, px, rfl, early⟩ := backwards
    · exact .inl ⟨ts, rest, rfl, early⟩
    · exact .inr ⟨ts, ready, ctx, fail, px, rest, rfl, early⟩
  · exact .inl ⟨_, by rw [step, illegal]; rfl⟩

end Sys2Proof.Machine

/-! ## Waiting, and times that run backwards (rules R215, R226) -/

namespace Sys2Proof.Machine

theorem fetch_empty {s : State} (empty : s.port = []) : fetch s = .wait := by
  rw [fetch, empty]
  rfl

theorem frameBackwards_iff {t : Time} {s : State} :
    frameBackwards t s = true ↔ s.rx.first = false ∧ (t < s.rxTime ∨ t < s.rx.winAnchor) := by
  simp [frameBackwards]

/-- Settles O9: an empty port offers no packet, and the waiting step clears the outputs alone. -/
theorem stepWaitsWithoutInput : Obligations.StepWaitsWithoutInput := by
  intro s empty
  rw [step, fetch_empty empty]
  rfl

/-- Settles O20: the phase selects the callback, whose check of the time comes first. -/
theorem runTickBeforeItsRunIsRefused : Obligations.RunTickBeforeItsRunIsRefused := by
  intro ts s active t
  have time : timeOf ts = t := timeOf_eq ts
  refine ⟨fun cal early => ?inCal, fun run early => ?inRun⟩
  case inCal =>
    rw [exec_txTick_of_cal active cal, time]
    exact calTick_of_backwards early
  case inRun =>
    rw [exec_txTick_of_run active run, time]
    exact runTick_of_backwards early

/-- Settles O42: the check of the time comes before the gates of the flags and of the pixels. -/
theorem frameBeforeItsWindowIsRefused : Obligations.FrameBeforeItsWindowIsRefused := by
  intro ts ready ctx fail px s active begun early
  rw [← timeOf_eq] at early
  exact exec_rxFrame_of_backwards active (frameBackwards_iff.mpr ⟨begun, early⟩) ready ctx fail px

end Sys2Proof.Machine
